-- ==== Sys2Proof/Word.lean ====
section
/-! DEFINITION. The word types of the framer: 32-bit registers (10_state R22) and 8-bit bytes (20_memory R51). -/

namespace Sys2Proof

/-- A register or command word: 32 bits, unsigned (00_scope R7 REG_WIDTH, R8). -/
abbrev Word := BitVec 32

/-- One byte of MEM (20_memory R51). -/
abbrev Byte := BitVec 8

end Sys2Proof
end

