-- ==== Sys2Proof/Machine/Bytes.lean ====
section
/-! DEFINITION. Byte order and byte sequences: le16 and le32 (00_scope R9), the little-endian u16 (00_scope R10), the
byte lanes of a register word (20_memory R53) and xorsum (00_scope R11). -/

namespace Sys2Proof.Machine

/-- `le16(v)` is [v mod 256, (v >> 8) mod 256] (00_scope R9). -/
def le16 (v : Nat) : List Byte := [BitVec.ofNat 8 v, BitVec.ofNat 8 (v >>> 8)]

/-- `le32(v)` is the 4-byte little-endian sequence of v (00_scope R9). -/
def le32 (v : Nat) : List Byte :=
  [BitVec.ofNat 8 v, BitVec.ofNat 8 (v >>> 8), BitVec.ofNat 8 (v >>> 16), BitVec.ofNat 8 (v >>> 24)]

/-- The unsigned value of two bytes, the low byte first (00_scope R10 MemRead(a, 2), 20_memory R52). -/
def u16le (lo hi : Byte) : Nat := lo.toNat + 256 * hi.toNat

/-- Byte lane k of a register word carries bits [8k+7:8k] (20_memory R53). -/
def lane (w : Word) (k : Nat) : Byte := w.extractLsb' (8 * k) 8

/-- The four byte lanes of a word, lane 0 first (20_memory R53). -/
def lanes (w : Word) : List Byte := [lane w 0, lane w 1, lane w 2, lane w 3]

/-- The word whose byte lanes are b0 to b3 (20_memory R53). -/
def ofLanes (b0 b1 b2 b3 : Byte) : Word := b3 ++ b2 ++ b1 ++ b0

/-- `xorsum(seed, s)` = seed ^ s[0] ^ ... ^ s[|s|-1], and seed when s is empty (00_scope R11, 41_block R120). -/
def xorsum (seed : Byte) (s : List Byte) : Byte := s.foldl (fun acc b => acc ^^^ b) seed

end Sys2Proof.Machine
end

