-- ==== Sys2Proof/Config.lean ====
section
/-! DEFINITION. What is fixed for the machine: the constants of 00_scope R6 and R7, the open parameters the spec
never lets a program observe, and the values the spec leaves open, each an uninterpreted constant. -/

namespace Sys2Proof

/-! ## Constants (00_scope R6, R7) -/

/-- The fixed end-of-memory address of the target machine (00_scope R6 END_ADDR). -/
def Config.endAddr : Nat := 56575

/-- The largest sprite collection (00_scope R6 MAX_RECORDS). -/
def Config.maxRecords : Nat := 255

/-- The largest payload of one block (00_scope R6 MAX_PAYLOAD). -/
def Config.maxPayload : Nat := 65534

/-- The length of a tape header record (00_scope R6 HEADER_PAYLOAD_LEN). -/
def Config.headerPayloadLen : Nat := 17

/-- The length of a header's filename field (00_scope R6 NAME_LEN). -/
def Config.nameLen : Nat := 10

/-- The flag of a header block (00_scope R6 HEADER_FLAG). -/
def Config.headerFlag : Byte := 0

/-- The flag of a data block (00_scope R6 DATA_FLAG). -/
def Config.dataFlag : Byte := 255

/-- The headerType that EXPORT writes (00_scope R6 EXPORT_HEADER_TYPE). -/
def Config.exportHeaderType : Byte := 3

/-- The param2 that EXPORT writes (00_scope R6 EXPORT_PARAM2). -/
def Config.exportParam2 : Nat := 32768

/-- The largest value of a u16 field (00_scope R17). -/
def Config.maxU16 : Nat := 0xFFFF

/-- The largest value of a 32-bit register (60_exceptions R232). -/
def Config.maxU32 : Nat := 0xFFFFFFFF

/-- The hard-wired value of the ID register: ASCII "TAP", then revision 7 (10_state R23). -/
def Config.idValue : Word := 0x54415007

/-! ## Parameters (00_scope R7) -/

/-- The bounds of the open parameter MEM_SIZE (00_scope R7). -/
abbrev Config.legalMemSize (n : Nat) : Prop := 1 ≤ n ∧ n ≤ 2 ^ 32

/-- DESIGN CHOICE (log 1): the MEM_SIZE of the machine that `State.reset` describes. Unsafe for a claim that rests on
this one size; the spec leaves the size open (00_scope R7). -/
def Config.resetMemSize : Nat := 0x10000

/-- Where the platform places the register window (00_scope R7 REG_BASE): open, so no value (log 2). -/
opaque Config.regBase : Nat

/-- Where the platform places MEM byte 0 (00_scope R7 MEM_BASE): open, so no value (log 2). -/
opaque Config.memBase : Nat

/-- The host's bus address of the register at a window offset (00_scope R7, 10_state R22). -/
def Config.regAddress (offset : Nat) : Nat := Config.regBase + offset

/-- The host's bus address of a MEM byte (00_scope R7, 20_memory R58). -/
def Config.memAddress (a : Nat) : Nat := Config.memBase + a

/-! ## Free values: uninterpreted, so no proof can see what they are -/

/-- FREE VALUE (log 3, safe): what a read at one tick finds in a MEM byte never written since reset
(70_reset R263, 93 U1 and U2). Arguments: the tick of the read and the address. -/
opaque Config.unwrittenByte : Nat → Nat → Byte

/-- FREE VALUE (log 5, safe): what a host read of RES0 to RES5 returns while BUSY = 1 (70_reset R268, 93 U3).
Arguments: the tick of the read and the register's number. -/
opaque Config.resWhileBusy : Nat → Nat → Word

/-- FREE VALUE (log 6, safe): what a host read of the running command's OUT region returns (70_reset R267, 93 U4).
Arguments: the tick of the read and the address. -/
opaque Config.outWhileBusy : Nat → Nat → Byte

/-- FREE VALUE (log 7, safe): the input byte a disturbed command sees (70_reset R267, 93 U5).
Arguments: the tick of the command and the address. -/
opaque Config.disturbedInput : Nat → Nat → Byte

/-- FREE VALUE (log 7, safe): an output byte of a disturbed command (70_reset R267, 93 U5).
Arguments: the tick of the command and the byte's index in the output. -/
opaque Config.disturbedOutput : Nat → Nat → Byte

/-- FREE VALUE (log 7, safe): a result register of a disturbed command (70_reset R267, 93 U5).
Arguments: the tick of the command and the register's number. -/
opaque Config.disturbedResult : Nat → Nat → Word

end Sys2Proof
end

