-- ==== Sys2Proof/Syntax.lean ====
section
/-! DEFINITION. The commands of the framer (30_encoding R74), the names of its registers and regions, and the host
statements of 30_encoding R89 to R91. -/

namespace Sys2Proof

/-- The 18 commands of 30_encoding R74, one constructor per row of the opcode table. The operand of a CV command is
its VERIFY bit and the operand of a CI command its IMM8 (30_encoding R71, R72). -/
inductive Instr where
  | curOpen
  | curReadU8
  | curReadU16le
  | curReadBytes
  | curAtEnd
  | blkDecode (verify : Bool)
  | blkEncode (flag : Byte)
  | xorCsum (seed : Byte)
  | hdrDecode
  | hdrEncode
  | tapDecode (verify : Bool)
  | tapEncode
  | sprUnpack
  | sprPack
  | attrUnpack
  | attrPack
  | layout
  | exportTape
  deriving DecidableEq, Repr

/-- The command's mnemonic, as 30_encoding R74 spells it. -/
def Instr.mnemonic : Instr → String
  | .curOpen => "CUR_OPEN"
  | .curReadU8 => "CUR_READ_U8"
  | .curReadU16le => "CUR_READ_U16LE"
  | .curReadBytes => "CUR_READ_BYTES"
  | .curAtEnd => "CUR_AT_END"
  | .blkDecode _ => "BLK_DECODE"
  | .blkEncode _ => "BLK_ENCODE"
  | .xorCsum _ => "XOR_CSUM"
  | .hdrDecode => "HDR_DECODE"
  | .hdrEncode => "HDR_ENCODE"
  | .tapDecode _ => "TAP_DECODE"
  | .tapEncode => "TAP_ENCODE"
  | .sprUnpack => "SPR_UNPACK"
  | .sprPack => "SPR_PACK"
  | .attrUnpack => "ATTR_UNPACK"
  | .attrPack => "ATTR_PACK"
  | .layout => "LAYOUT"
  | .exportTape => "EXPORT"

/-- The written form of a command (30_encoding R89): a CV command with VERIFY adds `.V`, a CI command its immediate. -/
def Instr.spelling (i : Instr) : String :=
  match i with
  | .blkDecode true | .tapDecode true => i.mnemonic ++ ".V"
  | .blkEncode n | .xorCsum n => i.mnemonic ++ " #" ++ toString n.toNat
  | _ => i.mnemonic

/-- The formats of a command word (30_encoding R71). -/
inductive Format where
  /-- IMM8 must be 0. -/
  | c0
  /-- IMM8[0] is VERIFY and IMM8[7:1] must be 0. -/
  | cv
  /-- IMM8 is a free operand. -/
  | ci
  deriving DecidableEq, Repr

/-- The regions of MEM that register pairs name (10_state R27). -/
inductive RegionId where
  | inp
  | aux
  | out
  deriving DecidableEq, Repr

/-- The 22 registers of the register window (10_state R22). -/
inductive RegName where
  | id | cmd | status | errcode | errinfo
  | inBase | inLen | auxBase | auxLen | outBase | outLen
  | cur
  | arg0 | arg1 | arg2 | arg3
  | res0 | res1 | res2 | res3 | res4 | res5
  deriving DecidableEq, Repr

/-- The regions a command uses (30_encoding R79). -/
def Instr.uses : Instr → RegionId → Bool
  | .curOpen, _ | .curAtEnd, _ | .attrUnpack, _ | .attrPack, _ => false
  | .curReadU8, r | .curReadU16le, r | .xorCsum _, r | .layout, r => r == .inp
  | .curReadBytes, r | .blkDecode _, r | .blkEncode _, r | .hdrDecode, r | .hdrEncode, r | .tapDecode _, r
  | .sprUnpack, r | .sprPack, r => r != .aux
  | .tapEncode, _ | .exportTape, _ => true

/-! ## Host statements (30_encoding R89 to R91) -/

/-- The written command of a host statement: a mnemonic with its operand, or one of the pseudo-mnemonics of
30_encoding R91. An immediate is written as a number of any size; 30_encoding R89 limits it to 0..255. -/
inductive CommandText where
  /-- A mnemonic, with its `.V` suffix where that is set (30_encoding R89). -/
  | plain (i : Instr)
  /-- `BLK_ENCODE #n`. -/
  | blkEncodeImm (n : Nat)
  /-- `XOR_CSUM #n`. -/
  | xorCsumImm (n : Nat)
  /-- `BLK_ENCODE.HDR`. -/
  | blkEncodeHdr
  /-- `BLK_ENCODE.DATA`. -/
  | blkEncodeData
  /-- `XOR_CSUM` with no immediate. -/
  | xorCsumBare
  deriving DecidableEq, Repr

/-- The statements of a host program (30_encoding R90, R91). Labels are numbers (log 17). -/
inductive Stmt where
  /-- `wr NAME, v`. -/
  | wr (r : RegName) (v : Nat)
  /-- `rd NAME`. -/
  | rd (r : RegName)
  /-- `mb a: b0, b1, ...`. -/
  | mb (a : Nat) (bytes : List Nat)
  /-- A command's mnemonic: the host writes its word to CMD. -/
  | command (c : CommandText)
  /-- `poll`. -/
  | poll
  /-- `L:`. -/
  | label (l : Nat)
  /-- `bz NAME, m, L`. -/
  | bz (r : RegName) (m : Nat) (l : Nat)
  /-- `bnz NAME, m, L`. -/
  | bnz (r : RegName) (m : Nat) (l : Nat)
  /-- `run X`. -/
  | run (c : CommandText)
  /-- `region R, b, l`. -/
  | region (r : RegionId) (base len : Nat)
  deriving DecidableEq, Repr

/-- One step of the host's assembled program: one access to the framer, as 00_scope R16 lists them. -/
inductive HostOp where
  /-- A register write of `size` bytes at a window offset (10_state R32). -/
  | regWrite (offset size : Nat) (v : Word)
  /-- A register read of `size` bytes at a window offset (10_state R32). -/
  | regRead (offset size : Nat)
  /-- A MEM byte write (20_memory R55 HostMemWrite). -/
  | memWrite (a : Nat) (b : Byte)
  /-- A MEM byte read (20_memory R55 HostMemRead). -/
  | memRead (a : Nat)
  /-- A register read that the host program branches on: to `target` when (value & mask) = 0 is `onZero`, else to the
  next op (30_encoding R90 `bz`, `bnz`). -/
  | branch (onZero : Bool) (offset : Nat) (mask : Word) (target : Nat)
  deriving DecidableEq, Repr

end Sys2Proof
end

