-- ==== Sys2Proof/WellFormed.lean ====
section
/-! DEFINITION. The checks that make a written command, a host statement or a host program well formed
(30_encoding R89 to R91), and the legality of MEM_SIZE (00_scope R7). -/

namespace Sys2Proof

/-- A command is well formed for every value of its operand: the VERIFY bit is one bit and IMM8 is any byte
(30_encoding R71, R88), and the operand types hold nothing else. -/
def Instr.wellFormed : Instr → Bool
  | .curOpen | .curReadU8 | .curReadU16le | .curReadBytes | .curAtEnd => true
  | .blkDecode _ | .blkEncode _ | .xorCsum _ => true
  | .hdrDecode | .hdrEncode | .tapDecode _ | .tapEncode => true
  | .sprUnpack | .sprPack | .attrUnpack | .attrPack | .layout | .exportTape => true

/-- "An immediate must be in 0..255" (30_encoding R89). -/
def CommandText.wellFormed : CommandText → Bool
  | .plain i => i.wellFormed
  | .blkEncodeImm n | .xorCsumImm n => decide (n ≤ 255)
  | .blkEncodeHdr | .blkEncodeData | .xorCsumBare => true

/-- The values a statement writes fit what they are written to: 32-bit registers and masks, bytes, 32-bit MEM
addresses (30_encoding R90, 00_scope R7). -/
def Stmt.wellFormed : Stmt → Bool
  | .wr _ v => decide (v < 2 ^ 32)
  | .mb a bytes => decide (a + bytes.length ≤ 2 ^ 32) && bytes.all (fun b => decide (b < 256))
  | .command c | .run c => c.wellFormed
  | .bz _ m _ | .bnz _ m _ => decide (m < 2 ^ 32)
  | .region _ b l => decide (b < 2 ^ 32) && decide (l < 2 ^ 32)
  | .rd _ | .poll | .label _ => true

/-- The label a statement defines. -/
def Stmt.labelDefined : Stmt → List Nat
  | .label l => [l]
  | _ => []

/-- The label a statement branches to. -/
def Stmt.labelUsed : Stmt → List Nat
  | .bz _ _ l | .bnz _ _ l => [l]
  | _ => []

/-- A host program is well formed: every statement is, no label is defined twice, and every label a branch names is
defined (30_encoding R90). -/
def Stmt.programWellFormed (p : List Stmt) : Bool :=
  p.all Stmt.wellFormed
    && decide (p.flatMap Stmt.labelDefined).Nodup
    && (p.flatMap Stmt.labelUsed).all (fun l => (p.flatMap Stmt.labelDefined).contains l)

/-- MEM_SIZE is in 1 .. 2^32 (00_scope R7). -/
def memSizeWellFormed (n : Nat) : Bool := decide (Config.legalMemSize n)

end Sys2Proof
end

