-- ==== Sys2Proof/Decode.lean ====
section
/-! DEFINITION. The command word (30_encoding R70 to R75): its fields, the opcode table, the decoder, and the encoder
written from the same table. -/

namespace Sys2Proof

/-! ## Fields (30_encoding R71) -/

/-- OPC, bits 7:0 (30_encoding R71). -/
def opcField (w : Word) : Byte := w.extractLsb' 0 8

/-- IMM8, bits 15:8 (30_encoding R71, R72). -/
def immField (w : Word) : Byte := w.extractLsb' 8 8

/-- RSV, bits 31:16 (30_encoding R71). -/
def rsvField (w : Word) : BitVec 16 := w.extractLsb' 16 16

/-- The word with OPC, IMM8 and RSV = 0: `(imm << 8) | OPC` (30_encoding R89). -/
def commandWord (opc imm : Byte) : Word := (imm.setWidth 32 <<< 8) ||| opc.setWidth 32

/-! ## The opcode table (30_encoding R74) -/

/-- One row of the table of 30_encoding R74. -/
structure OpcodeRow where
  opc : Byte
  mnemonic : String
  format : Format
  pattern : Word
  mask : Word
  deriving DecidableEq, Repr

/-- The table of 30_encoding R74, row by row. -/
def opcodeTable : List OpcodeRow :=
  [ ⟨0x01, "CUR_OPEN", .c0, 0x00000001, 0xFFFFFFFF⟩,
    ⟨0x02, "CUR_READ_U8", .c0, 0x00000002, 0xFFFFFFFF⟩,
    ⟨0x03, "CUR_READ_U16LE", .c0, 0x00000003, 0xFFFFFFFF⟩,
    ⟨0x04, "CUR_READ_BYTES", .c0, 0x00000004, 0xFFFFFFFF⟩,
    ⟨0x05, "CUR_AT_END", .c0, 0x00000005, 0xFFFFFFFF⟩,
    ⟨0x10, "BLK_DECODE", .cv, 0x00000010, 0xFFFFFEFF⟩,
    ⟨0x11, "BLK_ENCODE", .ci, 0x00000011, 0xFFFF00FF⟩,
    ⟨0x12, "XOR_CSUM", .ci, 0x00000012, 0xFFFF00FF⟩,
    ⟨0x20, "HDR_DECODE", .c0, 0x00000020, 0xFFFFFFFF⟩,
    ⟨0x21, "HDR_ENCODE", .c0, 0x00000021, 0xFFFFFFFF⟩,
    ⟨0x30, "TAP_DECODE", .cv, 0x00000030, 0xFFFFFEFF⟩,
    ⟨0x31, "TAP_ENCODE", .c0, 0x00000031, 0xFFFFFFFF⟩,
    ⟨0x40, "SPR_UNPACK", .c0, 0x00000040, 0xFFFFFFFF⟩,
    ⟨0x41, "SPR_PACK", .c0, 0x00000041, 0xFFFFFFFF⟩,
    ⟨0x42, "ATTR_UNPACK", .c0, 0x00000042, 0xFFFFFFFF⟩,
    ⟨0x43, "ATTR_PACK", .c0, 0x00000043, 0xFFFFFFFF⟩,
    ⟨0x50, "LAYOUT", .c0, 0x00000050, 0xFFFFFFFF⟩,
    ⟨0x60, "EXPORT", .c0, 0x00000060, 0xFFFFFFFF⟩ ]

/-- A word matches a row when `word & mask == match` (30_encoding R74). -/
def OpcodeRow.accepts (r : OpcodeRow) (w : Word) : Bool := (w &&& r.mask) == r.pattern

/-! ## Decoding (30_encoding R74, R75) -/

/-- Why a word is no command: the four cases of 30_encoding R75, and a byte sequence that is not one 32-bit word
(30_encoding R70). -/
inductive DecodeError where
  /-- The opcode has no row in the table. -/
  | unassignedOpcode
  /-- RSV is not 0. -/
  | reservedBits
  /-- A C0 command with IMM8 not 0. -/
  | immediateNotZero
  /-- A CV command with IMM8[7:1] not 0. -/
  | verifyReservedBits
  /-- Not exactly four bytes. -/
  | notOneWord
  deriving DecidableEq, Repr

/-- A C0 command takes no immediate (30_encoding R71). -/
def decodeC0 (imm : Byte) (i : Instr) : Except DecodeError Instr :=
  if imm = 0 then .ok i else .error .immediateNotZero

/-- A CV command takes VERIFY = IMM8[0] and needs IMM8[7:1] = 0 (30_encoding R71, R72). -/
def decodeCV (imm : Byte) (mk : Bool → Instr) : Except DecodeError Instr :=
  if imm.extractLsb' 1 7 = 0 then .ok (mk (imm.getLsbD 0)) else .error .verifyReservedBits

/-- The command of an opcode and an immediate (30_encoding R74). -/
def decodeFields (opc imm : Byte) : Except DecodeError Instr :=
  match opc.toNat with
  | 0x01 => decodeC0 imm .curOpen
  | 0x02 => decodeC0 imm .curReadU8
  | 0x03 => decodeC0 imm .curReadU16le
  | 0x04 => decodeC0 imm .curReadBytes
  | 0x05 => decodeC0 imm .curAtEnd
  | 0x10 => decodeCV imm .blkDecode
  | 0x11 => .ok (.blkEncode imm)
  | 0x12 => .ok (.xorCsum imm)
  | 0x20 => decodeC0 imm .hdrDecode
  | 0x21 => decodeC0 imm .hdrEncode
  | 0x30 => decodeCV imm .tapDecode
  | 0x31 => decodeC0 imm .tapEncode
  | 0x40 => decodeC0 imm .sprUnpack
  | 0x41 => decodeC0 imm .sprPack
  | 0x42 => decodeC0 imm .attrUnpack
  | 0x43 => decodeC0 imm .attrPack
  | 0x50 => decodeC0 imm .layout
  | 0x60 => decodeC0 imm .exportTape
  | _ => .error .unassignedOpcode

/-- The command a word stands for, or why it is illegal (30_encoding R74, R75). Every command is exactly one 32-bit
word (30_encoding R92). -/
def decode (w : Word) : Except DecodeError Instr :=
  if rsvField w = 0 then decodeFields (opcField w) (immField w) else .error .reservedBits

/-- The command that a byte sequence stands for, byte lane 0 first (20_memory R53, 30_encoding R70). -/
def decodeBytes : List Byte → Except DecodeError Instr
  | [b0, b1, b2, b3] => decode (Machine.ofLanes b0 b1 b2 b3)
  | _ => .error .notOneWord

/-- The command of a table row's word: the word's byte lanes, given to the decoder. Bits from `nbits` up are 0. -/
def decodeTableWord (nbits w : Nat) : Option Instr :=
  match decodeBytes (Machine.lanes (BitVec.ofNat 32 (w % 2 ^ nbits))) with
  | .ok i => some i
  | .error _ => none

/-! ## Encoding (30_encoding R74, R89) -/

/-- The opcode of a command (30_encoding R74). -/
def Instr.opc : Instr → Byte
  | .curOpen => 0x01
  | .curReadU8 => 0x02
  | .curReadU16le => 0x03
  | .curReadBytes => 0x04
  | .curAtEnd => 0x05
  | .blkDecode _ => 0x10
  | .blkEncode _ => 0x11
  | .xorCsum _ => 0x12
  | .hdrDecode => 0x20
  | .hdrEncode => 0x21
  | .tapDecode _ => 0x30
  | .tapEncode => 0x31
  | .sprUnpack => 0x40
  | .sprPack => 0x41
  | .attrUnpack => 0x42
  | .attrPack => 0x43
  | .layout => 0x50
  | .exportTape => 0x60

/-- The IMM8 of a command (30_encoding R72): the VERIFY bit, the immediate, or 0. -/
def Instr.imm : Instr → Byte
  | .blkDecode v | .tapDecode v => if v then 1 else 0
  | .blkEncode n | .xorCsum n => n
  | .curOpen | .curReadU8 | .curReadU16le | .curReadBytes | .curAtEnd => 0
  | .hdrDecode | .hdrEncode | .tapEncode => 0
  | .sprUnpack | .sprPack | .attrUnpack | .attrPack | .layout | .exportTape => 0

/-- The word of a command: `(imm << 8) | OPC` (30_encoding R89). -/
def encode (i : Instr) : Word := commandWord i.opc i.imm

/-- The bytes of a command's word, byte lane 0 first (20_memory R53). -/
def encodeBytes (i : Instr) : List Byte := Machine.lanes (encode i)

end Sys2Proof
end

