-- ==== Sys2Proof/Machine/State.lean ====
section
/-! DEFINITION. The state of the framer as plain data (10_state R20 to R38), the reasons a step can stop, and the state
after reset. -/

namespace Sys2Proof.Machine

/-- Why a step stops with a fault: never. Every error of the framer is architected: the command aborts into a next
state (60_exceptions R236), every host access has an outcome (93 R-3 to R-7), and the engine step never hangs
(60_exceptions R249). So this closed type has no constructor (log 15); that is safe. -/
inductive Fault
  deriving DecidableEq, Repr

/-- Why a step is refused. -/
inductive Refusal where
  /-- Raised by an arm of `exec` for an instruction that has no meaning yet; no arm does. Safe: the run stops. -/
  | notModelled (mnemonic : String)
  deriving DecidableEq, Repr

/-- MEM (10_state R35, 20_memory R51): the bytes written since reset, by rising address. An address that is not
listed has not been written since reset and holds no known value (70_reset R263, log 3). -/
abbrev Memory := List Host.Cell

/-- The canonical form of MEM: addresses strictly rising. An unlisted address reads as no value, so no entry can equal
what an unlisted address reads as. -/
abbrev Memory.wf (m : Memory) : Prop := m.Pairwise (fun x y => x.1 < y.1)

/-- Who moves next (00_scope R3, R16, 70_reset R260): the host, the engine, or the platform asserting reset. -/
inductive Turn where
  | host
  | engine
  | reset
  deriving DecidableEq, Repr

/-- The host agent (00_scope R3): the MODEL's own record of the software that drives the framer (log 8). -/
structure HostCpu where
  /-- The assembled host program (30_encoding R90, R91). -/
  prog : List HostOp
  /-- The index of the op the host performs next. -/
  pc : Nat
  /-- The values the host's reads have returned, the latest first (log 14). -/
  readings : List Word
  deriving DecidableEq, Repr

/-- The whole state. Every field of the spec's is named after its register; the model's own fields come last. -/
structure State where
  /-- MEM_SIZE (00_scope R7): a parameter of the machine that no step changes (log 1). -/
  memSize : Nat
  /-- CMD, the last accepted word (10_state R24). -/
  cmd : Word
  /-- STATUS.DONE (10_state R25). -/
  done : Bool
  /-- STATUS.ERR (10_state R25). -/
  err : Bool
  /-- ERRCODE[7:0]; bits 31:8 read 0 (10_state R26). -/
  errcode : Byte
  /-- ERRINFO (10_state R26). -/
  errinfo : Word
  /-- IN_BASE (10_state R27). -/
  inBase : Word
  /-- IN_LEN (10_state R27). -/
  inLen : Word
  /-- AUX_BASE (10_state R27). -/
  auxBase : Word
  /-- AUX_LEN (10_state R27). -/
  auxLen : Word
  /-- OUT_BASE (10_state R27). -/
  outBase : Word
  /-- OUT_LEN (10_state R27). -/
  outLen : Word
  /-- CUR, the cursor (10_state R28). -/
  cur : Word
  /-- ARG0 (10_state R29). -/
  arg0 : Word
  /-- ARG1 (10_state R29). -/
  arg1 : Word
  /-- ARG2 (10_state R29). -/
  arg2 : Word
  /-- ARG3 (10_state R29). -/
  arg3 : Word
  /-- RES0 (10_state R30). -/
  res0 : Word
  /-- RES1 (10_state R30). -/
  res1 : Word
  /-- RES2 (10_state R30). -/
  res2 : Word
  /-- RES3 (10_state R30). -/
  res3 : Word
  /-- RES4 (10_state R30). -/
  res4 : Word
  /-- RES5 (10_state R30). -/
  res5 : Word
  /-- PENDING: the accepted command word, or no command pending (10_state R33, R38). STATUS.BUSY is 1 exactly while it
  holds a word (log 10). -/
  pending : Option Word
  /-- MEM (10_state R35). -/
  mem : Memory
  /-- The model's own: the host has written MEM inside a region of the running command (93 U5, log 7). -/
  disturbed : Bool
  /-- The model's own: the counter the free values are applied to (log 4). -/
  tick : Nat
  /-- The model's own: which agent moves next (70_reset R271, log 9). -/
  turns : List Turn
  /-- The model's own: the host agent (log 8). -/
  host : HostCpu
  deriving DecidableEq, Repr

/-- The machine of a given MEM_SIZE right after reset (10_state R38, 70_reset R261): every register 0 but the hard-wired
ID and the computed AT_END, no command pending, no MEM byte written, no host program. -/
def State.resetWith (memSize : Nat) : State where
  memSize := memSize
  cmd := 0
  done := false
  err := false
  errcode := 0
  errinfo := 0
  inBase := 0
  inLen := 0
  auxBase := 0
  auxLen := 0
  outBase := 0
  outLen := 0
  cur := 0
  arg0 := 0
  arg1 := 0
  arg2 := 0
  arg3 := 0
  res0 := 0
  res1 := 0
  res2 := 0
  res3 := 0
  res4 := 0
  res5 := 0
  pending := none
  mem := []
  disturbed := false
  tick := 0
  turns := []
  host := ⟨[], 0, []⟩

/-- The machine right after reset, at the MEM_SIZE of log 1. -/
def State.reset : State := State.resetWith Config.resetMemSize

end Sys2Proof.Machine
end

