-- ==== Sys2Proof/Machine/Flags.lean ====
section
/-! DEFINITION. Every flag of the framer (10_state R39): the STATUS bits, the info bits EMPTY and CSUM_OK of a decoded
block, and the stop reasons of SPR_UNPACK. -/

namespace Sys2Proof.Machine

/-- STATUS.BUSY: a command is accepted and not yet complete, that is, PENDING holds its word (10_state R25, R33). -/
def State.busy (s : State) : Bool := s.pending.isSome

/-- STATUS.AT_END: 1 exactly when CUR ≥ IN_LEN, unsigned (10_state R25). CUR_AT_END makes the same test
(40_cursor R105). -/
def State.atEnd (s : State) : Bool := decide (s.inLen.toNat ≤ s.cur.toNat)

/-- One flag as a register value: 1 or 0. -/
def bit (b : Bool) : Word := if b then 1 else 0

/-- What STATUS reads: BUSY, DONE, ERR and AT_END in bits 0 to 3, and 0 in bits 31:4 (10_state R25). -/
def State.statusWord (s : State) : Word :=
  bit s.busy ||| (bit s.done <<< 1) ||| (bit s.err <<< 2) ||| (bit s.atEnd <<< 3)

/-- The info bits of a decoded block: bit 0 EMPTY, bit 1 CSUM_OK, the rest 0 (30_encoding R83, 41_block R123). -/
def blockInfo (empty ok : Bool) : Nat := (if empty then 1 else 0) + (if ok then 2 else 0)

/-- Why SPR_UNPACK's scan stops (44_sprite R185). -/
inductive StopReason where
  /-- The buffer is exhausted. -/
  | exhausted
  /-- An id byte of 0. -/
  | sentinel
  /-- Fewer than 5 bytes remain. -/
  | short
  /-- A width or height of 0. -/
  | zeroDim
  /-- The record would pass the end. -/
  | overrun
  /-- A 256th complete record. -/
  | limit
  deriving DecidableEq, Repr

/-- The code of a stop reason that RES2 reports (44_sprite R187). -/
def StopReason.code : StopReason → Nat
  | .exhausted => 0
  | .sentinel => 1
  | .short => 2
  | .zeroDim => 3
  | .overrun => 4
  | .limit => 5

end Sys2Proof.Machine
end

