-- ==== Sys2Proof/Machine/Ops.lean ====
section
/-! DEFINITION. The shared operations: MEM, the region and overlap checks, the output commit, and the life of a command,
which takes the place of exception entry and return: acceptance, success and abort (60_exceptions R233 to R236). -/

namespace Sys2Proof.Machine

/-! ## MEM (20_memory R51) -/

/-- The byte at an address, or none when nothing has written it since reset (70_reset R263). -/
def Memory.read? (m : Memory) (a : Nat) : Option Byte :=
  match m with
  | [] => none
  | (k, b) :: rest => if k = a then some b else Memory.read? rest a

/-- The cells of a byte sequence laid down from an address. -/
def cellsFrom (a : Nat) : List Byte → Memory
  | [] => []
  | b :: rest => (a, b) :: cellsFrom (a + 1) rest

/-- `MemWriteBytes(a, s)` writes s at a..a+|s|-1 (00_scope R10) and keeps every other cell. -/
def Memory.writeBytes (m : Memory) (a : Nat) (bytes : List Byte) : Memory :=
  match bytes with
  | [] => m
  | b :: rest =>
    m.filter (fun c => decide (c.1 < a)) ++ cellsFrom a (b :: rest)
      ++ m.filter (fun c => decide (a + (rest.length + 1) ≤ c.1))

/-- Writes one byte (20_memory R55). -/
def Memory.write (m : Memory) (a : Nat) (b : Byte) : Memory := m.writeBytes a [b]

/-- The MEM byte the running command sees: the byte last written, or a free value where nothing has written it since
reset (70_reset R263, log 3). A command disturbed by a host write sees free values (70_reset R267, log 7). -/
def State.look (s : State) (a : Nat) : Byte :=
  if s.disturbed then Config.disturbedInput s.tick a
  else (s.mem.read? a).getD (Config.unwrittenByte s.tick a)

/-- `MemBytes(a, n)`: the bytes a .. a+n-1 as the running command sees them (00_scope R10). -/
def State.lookBytes (s : State) (a : Nat) : Nat → List Byte
  | 0 => []
  | n + 1 => s.look a :: s.lookBytes (a + 1) n

/-! ## Regions (10_state R27, 30_encoding R76 to R79) -/

/-- A region's id: 1 IN, 2 AUX, 3 OUT (10_state R27). -/
def regionNumber : RegionId → Nat
  | .inp => 1
  | .aux => 2
  | .out => 3

/-- The base register of a region, as an unbounded integer (10_state R27, 00_scope R17). -/
def State.base (s : State) : RegionId → Nat
  | .inp => s.inBase.toNat
  | .aux => s.auxBase.toNat
  | .out => s.outBase.toNat

/-- The length register of a region, as an unbounded integer (10_state R27, 00_scope R17). -/
def State.len (s : State) : RegionId → Nat
  | .inp => s.inLen.toNat
  | .aux => s.auxLen.toNat
  | .out => s.outLen.toNat

/-- A region is inside MEM: base + len ≤ MEM_SIZE, with no wrap (30_encoding R76). -/
def State.regionFits (s : State) (r : RegionId) : Bool := decide (s.base r + s.len r ≤ s.memSize)

/-- `Overlaps(b1, l1, b2, l2)` (30_encoding R77). -/
def overlaps (b1 l1 b2 l2 : Nat) : Bool :=
  decide (l1 > 0) && decide (l2 > 0) && decide (b1 < b2 + l2) && decide (b2 < b1 + l1)

/-- OUT overlaps an input region (30_encoding R77). -/
def State.outOverlaps (s : State) (r : RegionId) : Bool :=
  overlaps (s.base .out) (s.len .out) (s.base r) (s.len r)

/-- An address is one of a region's bytes (10_state R27). -/
def State.inRegion (s : State) (r : RegionId) (a : Nat) : Bool :=
  decide (s.base r ≤ a) && decide (a < s.base r + s.len r)

/-! ## Errors (60_exceptions R231) -/

/-- The error kinds of 60_exceptions R231, each with its information value. -/
inductive CmdError where
  /-- A read would pass the end of IN: the offset where the failing item starts. -/
  | outOfBounds (offset : Nat)
  /-- HDR_DECODE's input is not 17 bytes: IN_LEN. -/
  | malformedHeader (length : Nat)
  /-- A value does not fit its u16 field: the value. -/
  | encodingError (value : Nat)
  /-- totalBytes > 56575: totalBytes. -/
  | capacityExceeded (total : Nat)
  /-- With VERIFY, a stored checksum differs: the offset of the block's length field. -/
  | checksumMismatch (offset : Nat)
  /-- The word matches no opcode row: the word. -/
  | illegalCommand (word : Nat)
  /-- A region passes MEM_SIZE: the region id. -/
  | bufferRange (region : Nat)
  /-- OUT overlaps an input region: the id of that region. -/
  | regionOverlap (region : Nat)
  /-- The output is longer than OUT_LEN: the length needed. -/
  | outputOverflow (needed : Nat)
  /-- A USF entry has width 0 or height 0: the offset of the entry. -/
  | invalidRecord (offset : Nat)
  deriving DecidableEq, Repr

/-- ERRCODE of an error (60_exceptions R231). -/
def CmdError.code : CmdError → Byte
  | .outOfBounds _ => 1
  | .malformedHeader _ => 2
  | .encodingError _ => 3
  | .capacityExceeded _ => 4
  | .checksumMismatch _ => 5
  | .illegalCommand _ => 6
  | .bufferRange _ => 7
  | .regionOverlap _ => 8
  | .outputOverflow _ => 9
  | .invalidRecord _ => 10

/-- The information value of an error, unbounded (60_exceptions R231). -/
def CmdError.info : CmdError → Nat
  | .outOfBounds n | .malformedHeader n | .encodingError n | .capacityExceeded n | .checksumMismatch n => n
  | .illegalCommand n | .bufferRange n | .regionOverlap n | .outputOverflow n | .invalidRecord n => n

/-- ERRINFO records min(info, 2^32 - 1) (60_exceptions R232). -/
def saturate (n : Nat) : Word := BitVec.ofNat 32 (min n Config.maxU32)

/-! ## Checks (30_encoding R76 to R78) -/

/-- `CheckRegion` (30_encoding R76). -/
def checkRegion (s : State) (r : RegionId) : Except CmdError Unit :=
  if s.regionFits r then .ok () else .error (.bufferRange (regionNumber r))

/-- The overlap check of OUT with one input region (30_encoding R77). -/
def checkOverlap (s : State) (r : RegionId) : Except CmdError Unit :=
  if s.outOverlaps r then .error (.regionOverlap (regionNumber r)) else .ok ()

/-- The checks of a command that uses IN and OUT, in order (30_encoding R76, R77, R79). -/
def checkInOut (s : State) : Except CmdError Unit := do
  checkRegion s .inp
  checkRegion s .out
  checkOverlap s .inp

/-- The checks of a command that uses IN, AUX and OUT, in order (30_encoding R76, R77, R79). -/
def checkInAuxOut (s : State) : Except CmdError Unit := do
  checkRegion s .inp
  checkRegion s .aux
  checkRegion s .out
  checkOverlap s .inp
  checkOverlap s .aux

/-- The last check of a command that writes OUT: the output fits OUT_LEN (30_encoding R78). -/
def checkOutput (s : State) (out : List Byte) : Except CmdError Unit :=
  if out.length > s.outLen.toNat then .error (.outputOverflow out.length) else .ok ()

/-! ## What a successful command writes (30_encoding R78, 60_exceptions R235) -/

/-- The results a command commits together: its OUT bytes, the RES registers its rule lists, and CUR
(00_scope R12, 30_encoding R78). A field that is none is not written (10_state R30). -/
structure Effect where
  out : Option (List Byte) := none
  res0 : Option Word := none
  res1 : Option Word := none
  res2 : Option Word := none
  res3 : Option Word := none
  res4 : Option Word := none
  res5 : Option Word := none
  cur : Option Word := none
  deriving DecidableEq, Repr

/-- A RES register or CUR gets the exact value, which its rule guarantees fits (00_scope R17). -/
def value (n : Nat) : Option Word := some (BitVec.ofNat 32 n)

/-- The results of a disturbed command: every output byte and every RES register it writes is a free value
(70_reset R267, 93 U5, log 7). -/
def Effect.scrambled (f : Effect) (tick : Nat) : Effect :=
  { f with
    out := f.out.map (fun bytes => (List.range bytes.length).map (Config.disturbedOutput tick))
    res0 := f.res0.map (fun _ => Config.disturbedResult tick 0)
    res1 := f.res1.map (fun _ => Config.disturbedResult tick 1)
    res2 := f.res2.map (fun _ => Config.disturbedResult tick 2)
    res3 := f.res3.map (fun _ => Config.disturbedResult tick 3)
    res4 := f.res4.map (fun _ => Config.disturbedResult tick 4)
    res5 := f.res5.map (fun _ => Config.disturbedResult tick 5) }

/-- MEM after a commit: the output at OUT_BASE, every other byte unchanged (30_encoding R78). -/
def State.committed (s : State) (out : Option (List Byte)) : Memory :=
  match out with
  | some bytes => s.mem.writeBytes (s.base .out) bytes
  | none => s.mem

/-- The commit, the register results and `finish` in one step: BUSY 0, DONE 1, PENDING empty
(30_encoding R78, 60_exceptions R234, R235). -/
def State.apply (s : State) (f : Effect) : State :=
  { s with
    mem := s.committed f.out
    res0 := f.res0.getD s.res0
    res1 := f.res1.getD s.res1
    res2 := f.res2.getD s.res2
    res3 := f.res3.getD s.res3
    res4 := f.res4.getD s.res4
    res5 := f.res5.getD s.res5
    cur := f.cur.getD s.cur
    pending := none
    done := true
    disturbed := false
    tick := s.tick + 1 }

/-- Success: the command's results, which are free values when the host disturbed its regions
(60_exceptions R235, 70_reset R267). -/
def State.finish (s : State) (f : Effect) : State :=
  s.apply (if s.disturbed then f.scrambled s.tick else f)

/-- Abort (`raise E(info)`): BUSY 0, ERR 1, ERRCODE, ERRINFO and PENDING empty; nothing else of the spec's state changes
(60_exceptions R236, R237). -/
def State.abort (s : State) (e : CmdError) : State :=
  { s with
    errcode := e.code
    errinfo := saturate e.info
    err := true
    pending := none
    disturbed := false
    tick := s.tick + 1 }

/-- A command ends in `finish` or `raise` (60_exceptions R234). -/
def State.settle (s : State) (r : Except CmdError Effect) : State :=
  match r with
  | .ok f => s.finish f
  | .error e => s.abort e

/-- Command issue (60_exceptions R233). It also clears the error state of the command before, which is the framer's
whole return from an error (60_exceptions R239). -/
def State.accept (s : State) (w : Word) : State :=
  { s with
    cmd := w
    pending := some w
    done := false
    err := false
    errcode := 0
    errinfo := 0 }

/-- Platform reset (70_reset R260 to R263): every register at its reset value, PENDING empty, and no MEM byte known. MEM_SIZE
and the model's own schedule, host and counter are not the framer's to reset (log 12). -/
def State.platformReset (s : State) : State :=
  { State.resetWith s.memSize with
    tick := s.tick
    turns := s.turns
    host := s.host }

end Sys2Proof.Machine
end

