-- ==== Sys2Proof/Machine/Registers.lean ====
section
/-! DEFINITION. The register window as the host sees it (10_state R22 to R32). -/

namespace Sys2Proof.Machine

/-- The 22 registers in the order of their offsets 4·i (10_state R22). -/
def registerOrder : List RegName :=
  [.id, .cmd, .status, .errcode, .errinfo, .inBase, .inLen, .auxBase, .auxLen, .outBase, .outLen, .cur,
   .arg0, .arg1, .arg2, .arg3, .res0, .res1, .res2, .res3, .res4, .res5]

/-- The window offset of a register (10_state R22). -/
def registerOffset : RegName → Nat
  | .id => 0x00
  | .cmd => 0x04
  | .status => 0x08
  | .errcode => 0x0C
  | .errinfo => 0x10
  | .inBase => 0x14
  | .inLen => 0x18
  | .auxBase => 0x1C
  | .auxLen => 0x20
  | .outBase => 0x24
  | .outLen => 0x28
  | .cur => 0x2C
  | .arg0 => 0x30
  | .arg1 => 0x34
  | .arg2 => 0x38
  | .arg3 => 0x3C
  | .res0 => 0x40
  | .res1 => 0x44
  | .res2 => 0x48
  | .res3 => 0x4C
  | .res4 => 0x50
  | .res5 => 0x54

/-- An aligned 32-bit access: 4 bytes at a multiple of 4 below 0x100 (10_state R32). Any other access is no register
access, also one past the window (log 11). -/
def registerAccess (offset size : Nat) : Bool :=
  decide (size = 4) && decide (offset % 4 = 0) && decide (offset < 0x100)

/-- The register that an access reaches: none at a reserved offset 0x58 to 0xFF (10_state R31), and none for an access
that is not an aligned 32-bit access (10_state R32). -/
def registerAt (offset size : Nat) : Option RegName :=
  if registerAccess offset size then registerOrder[offset / 4]? else none

/-- The number of a result register, for the registers whose read is open while BUSY = 1 (70_reset R268). -/
def resNumber : RegName → Option Nat
  | .res0 => some 0
  | .res1 => some 1
  | .res2 => some 2
  | .res3 => some 3
  | .res4 => some 4
  | .res5 => some 5
  | .id | .cmd | .status | .errcode | .errinfo => none
  | .inBase | .inLen | .auxBase | .auxLen | .outBase | .outLen | .cur => none
  | .arg0 | .arg1 | .arg2 | .arg3 => none

/-- What a register holds (10_state R22 to R30): ID is hard-wired, STATUS is assembled, ERRCODE[31:8] is 0. -/
def State.readReg (s : State) : RegName → Word
  | .id => Config.idValue
  | .cmd => s.cmd
  | .status => s.statusWord
  | .errcode => s.errcode.setWidth 32
  | .errinfo => s.errinfo
  | .inBase => s.inBase
  | .inLen => s.inLen
  | .auxBase => s.auxBase
  | .auxLen => s.auxLen
  | .outBase => s.outBase
  | .outLen => s.outLen
  | .cur => s.cur
  | .arg0 => s.arg0
  | .arg1 => s.arg1
  | .arg2 => s.arg2
  | .arg3 => s.arg3
  | .res0 => s.res0
  | .res1 => s.res1
  | .res2 => s.res2
  | .res3 => s.res3
  | .res4 => s.res4
  | .res5 => s.res5

/-- A host write to a register while BUSY = 0 (10_state R24, R27, R29, R32): a RW register stores the value, CMD accepts
the word, and a read-only register ignores the write. -/
def State.writeReg (s : State) (r : RegName) (v : Word) : State :=
  match r with
  | .cmd => s.accept v
  | .inBase => { s with inBase := v }
  | .inLen => { s with inLen := v }
  | .auxBase => { s with auxBase := v }
  | .auxLen => { s with auxLen := v }
  | .outBase => { s with outBase := v }
  | .outLen => { s with outLen := v }
  | .arg0 => { s with arg0 := v }
  | .arg1 => { s with arg1 := v }
  | .arg2 => { s with arg2 := v }
  | .arg3 => { s with arg3 := v }
  | .id | .status | .errcode | .errinfo | .cur => s
  | .res0 | .res1 | .res2 | .res3 | .res4 | .res5 => s

end Sys2Proof.Machine
end

