-- ==== Sys2Proof/Machine/Assembler.lean ====
section
/-! DEFINITION. Host statements as host steps (30_encoding R89 to R91), and wider host accesses of MEM as byte accesses
(20_memory R55). -/

namespace Sys2Proof.Machine

/-- The command a written command stands for (30_encoding R89, R91). An immediate outside 0 to 255, whose word the spec does
not give, is reduced modulo 2^8 (log 23, DESIGN CHOICE, unsafe for such a program). -/
def CommandText.instr : CommandText → Instr
  | .plain i => i
  | .blkEncodeImm n => .blkEncode (BitVec.ofNat 8 n)
  | .xorCsumImm n => .xorCsum (BitVec.ofNat 8 n)
  | .blkEncodeHdr => .blkEncode 0x00
  | .blkEncodeData => .blkEncode 0xFF
  | .xorCsumBare => .xorCsum 0

/-- A register write of 32 bits by name (30_encoding R90 `wr`). A value of more than 32 bits, which the spec does not give
a meaning, is reduced modulo 2^32 (log 23, DESIGN CHOICE, unsafe for such a program). -/
def writeOp (r : RegName) (v : Nat) : HostOp := .regWrite (registerOffset r) 4 (BitVec.ofNat 32 v)

/-- A command's mnemonic: the host writes its word to CMD (30_encoding R90). -/
def commandOp (c : CommandText) : HostOp := .regWrite (registerOffset .cmd) 4 (encode (CommandText.instr c))

/-- The base register of a region, by name (10_state R27). -/
def baseName : RegionId → RegName
  | .inp => .inBase
  | .aux => .auxBase
  | .out => .outBase

/-- The length register of a region, by name (10_state R27). -/
def lenName : RegionId → RegName
  | .inp => .inLen
  | .aux => .auxLen
  | .out => .outLen

/-- One byte write per byte, in ascending address order (30_encoding R90 `mb`, 20_memory R55). -/
def byteWrites (a : Nat) : List Byte → List HostOp
  | [] => []
  | b :: rest => .memWrite a b :: byteWrites (a + 1) rest

/-- A wider host write to MEM is its byte writes, ascending and little-endian (20_memory R55): n bytes of v. -/
def wideMemWrite (a n v : Nat) : List HostOp :=
  byteWrites a ((List.range n).map (fun k => BitVec.ofNat 8 (v >>> (8 * k))))

/-- A wider host read of MEM is its byte reads, ascending (20_memory R55). -/
def wideMemRead (a n : Nat) : List HostOp := (List.range n).map (fun k => .memRead (a + k))

/-- One line of a program between statements and host ops: an op, a branch on a register to a label, a branch to itself,
or a label (30_encoding R90). -/
inductive Line where
  | op (o : HostOp)
  | branch (onZero : Bool) (r : RegName) (mask : Nat) (label : Nat)
  | poll
  | label (l : Nat)
  deriving DecidableEq, Repr

/-- The lines of a statement: pseudo-statements are expanded as 30_encoding R91 says. A written byte outside 0 to 255, which
the spec does not give a meaning, is reduced modulo 2^8 (log 23, DESIGN CHOICE, unsafe for such a program). -/
def linesOf : Stmt → List Line
  | .wr r v => [.op (writeOp r v)]
  | .rd r => [.op (.regRead (registerOffset r) 4)]
  | .mb a bytes => (byteWrites a (bytes.map (BitVec.ofNat 8))).map .op
  | .command c => [.op (commandOp c)]
  | .poll => [.poll]
  | .label l => [.label l]
  | .bz r m l => [.branch true r m l]
  | .bnz r m l => [.branch false r m l]
  | .run c => [.op (commandOp c), .poll]
  | .region r b l => [.op (writeOp (baseName r) b), .op (writeOp (lenName r) l)]

/-- The index of the op that a label names, counting from i: labels take no room (30_encoding R90). -/
def labelIndex (l : Nat) : List Line → Nat → Option Nat
  | [], _ => none
  | .label k :: rest, i => if k = l then some i else labelIndex l rest i
  | .op _ :: rest, i | .branch _ _ _ _ :: rest, i | .poll :: rest, i => labelIndex l rest (i + 1)

/-- The ops of the lines from index i on, branch targets looked up in the whole program. `poll` is
`L: bnz STATUS, 1, L` (30_encoding R90). A branch to a label that no statement defines has no assembly (log 17, DESIGN
CHOICE); a mask of more than 32 bits is reduced modulo 2^32 (log 23, DESIGN CHOICE, unsafe for such a program). -/
def assembleLines (all : List Line) : List Line → Nat → Option (List HostOp)
  | [], _ => some []
  | .label _ :: rest, i => assembleLines all rest i
  | .op o :: rest, i => (assembleLines all rest (i + 1)).map (o :: ·)
  | .poll :: rest, i =>
    (assembleLines all rest (i + 1)).map (.branch false (registerOffset .status) 1 i :: ·)
  | .branch onZero r mask l :: rest, i =>
    match labelIndex l all 0, assembleLines all rest (i + 1) with
    | some target, some ops => some (.branch onZero (registerOffset r) (BitVec.ofNat 32 mask) target :: ops)
    | _, _ => none

/-- A host program as host ops (30_encoding R89 to R91); none when a branch names an undefined label (log 17, DESIGN CHOICE).
It does not ask for `Stmt.programWellFormed`: out-of-range values are reduced to their widths (log 23, DESIGN CHOICE). -/
def assemble (p : List Stmt) : Option (List HostOp) :=
  assembleLines (p.flatMap linesOf) (p.flatMap linesOf) 0

end Sys2Proof.Machine
end

