-- ==== Sys2Proof/Machine/Operands.lean ====
section
/-! DEFINITION. Every operand form of a command (30_encoding R72, R73, R79): the bytes of the IN and AUX regions, what
remains at the cursor, and the fields of the ARG registers. IMM8 stands in the command itself. -/

namespace Sys2Proof.Machine

/-- `IN(i)`: the byte at index i of the IN region (00_scope R10). -/
def State.inByte (s : State) (i : Nat) : Byte := s.look (s.base .inp + i)

/-- `INB(a, n)`: the n bytes of IN from index a (00_scope R10). -/
def State.inBytes (s : State) (a n : Nat) : List Byte := s.lookBytes (s.base .inp + a) n

/-- `AUXB(a, n)`: the n bytes of AUX from index a (00_scope R10). -/
def State.auxBytes (s : State) (a n : Nat) : List Byte := s.lookBytes (s.base .aux + a) n

/-- INB(0, IN_LEN): the whole IN region. -/
def State.inAll (s : State) : List Byte := s.inBytes 0 (s.len .inp)

/-- AUXB(0, AUX_LEN): the whole AUX region. -/
def State.auxAll (s : State) : List Byte := s.auxBytes 0 (s.len .aux)

/-- `avail`: IN_LEN - CUR, or 0 when CUR is past IN_LEN (40_cursor R100). Subtraction of naturals stops at 0. -/
def State.avail (s : State) : Nat := s.len .inp - s.cur.toNat

/-- CUR_READ_BYTES: n = ARG0[31:0] (30_encoding R73). -/
def State.argCount (s : State) : Nat := s.arg0.toNat

/-- HDR_ENCODE: headerType = ARG0[7:0] (30_encoding R73). -/
def State.argHeaderType (s : State) : Byte := s.arg0.extractLsb' 0 8

/-- HDR_ENCODE: dataLength = ARG1[15:0] (30_encoding R73). -/
def State.argDataLength (s : State) : Nat := (s.arg1.extractLsb' 0 16).toNat

/-- HDR_ENCODE: param1 = ARG2[15:0] (30_encoding R73). -/
def State.argParam1 (s : State) : Nat := (s.arg2.extractLsb' 0 16).toNat

/-- HDR_ENCODE: param2 = ARG3[15:0] (30_encoding R73). -/
def State.argParam2 (s : State) : Nat := (s.arg3.extractLsb' 0 16).toNat

/-- SPR_PACK: startAddress = ARG0[31:0] (30_encoding R73). -/
def State.argStart (s : State) : Nat := s.arg0.toNat

/-- ATTR_UNPACK: a = ARG0[7:0] (30_encoding R73). -/
def State.argAttr (s : State) : Byte := s.arg0.extractLsb' 0 8

/-- The ink field a[2:0] of an attribute byte (00_scope R15). -/
def attrInk (a : Byte) : BitVec 3 := a.extractLsb' 0 3

/-- The paper field a[5:3] of an attribute byte (00_scope R15). -/
def attrPaper (a : Byte) : BitVec 3 := a.extractLsb' 3 3

/-- The bright flag a[6] of an attribute byte (00_scope R15). -/
def attrBright (a : Byte) : BitVec 1 := a.extractLsb' 6 1

/-- The flash flag a[7] of an attribute byte (00_scope R15). -/
def attrFlash (a : Byte) : BitVec 1 := a.extractLsb' 7 1

/-- ink | (paper << 3) | (bright << 6) | (flash << 7), zero-extended (44_sprite R191). -/
def attrJoin (ink paper : BitVec 3) (bright flash : BitVec 1) : Word :=
  ink.setWidth 32 ||| (paper.setWidth 32 <<< 3) ||| (bright.setWidth 32 <<< 6) ||| (flash.setWidth 32 <<< 7)

/-- ATTR_PACK: ink = ARG0[2:0] (30_encoding R73). -/
def State.argInk (s : State) : BitVec 3 := s.arg0.extractLsb' 0 3

/-- ATTR_PACK: paper = ARG1[2:0] (30_encoding R73). -/
def State.argPaper (s : State) : BitVec 3 := s.arg1.extractLsb' 0 3

/-- ATTR_PACK: bright = ARG2[0] (30_encoding R73). -/
def State.argBright (s : State) : BitVec 1 := s.arg2.extractLsb' 0 1

/-- ATTR_PACK: flash = ARG3[0] (30_encoding R73). -/
def State.argFlash (s : State) : BitVec 1 := s.arg3.extractLsb' 0 1

end Sys2Proof.Machine
end

