-- ==== Sys2Proof/Machine/Block.lean ====
section
/-! DEFINITION. The block commands and the XOR checksum (41_block): the framing and parsing functions that the container
and export commands share, and BLK_DECODE, BLK_ENCODE and XOR_CSUM. -/

namespace Sys2Proof.Machine

/-- `Frame(f, s)`: length, flag, payload, checksum (41_block R121, 30_encoding R80). -/
def frame (flag : Byte) (payload : List Byte) : List Byte :=
  le16 (payload.length + 1) ++ [flag] ++ payload ++ [xorsum flag payload]

/-- One decoded block (41_block R122). -/
structure Block where
  /-- The length field L. -/
  length : Nat
  /-- L = 0: the block carries nothing. -/
  empty : Bool
  flag : Byte
  /-- The stored checksum. -/
  stored : Byte
  /-- The computed checksum. -/
  computed : Byte
  /-- The two checksums are equal, and L ≥ 1. -/
  ok : Bool
  payload : List Byte
  deriving DecidableEq, Repr

/-- The empty block (41_block R122, 43_container R165). -/
def emptyBlock : Block :=
  { length := 0, empty := true, flag := 0, stored := 0, computed := 0, ok := false, payload := [] }

/-- The non-empty block of length field L that starts at offset p of t (41_block R122, 30_encoding R80). -/
def blockAt (t : List Byte) (p L : Nat) : Block :=
  let flag := t.getD (p + 2) 0
  let payload := (t.drop (p + 3)).take (L - 1)
  let stored := t.getD (p + 2 + L) 0
  let computed := xorsum flag payload
  { length := L, empty := false, flag := flag, stored := stored, computed := computed, ok := computed == stored, payload := payload }

/-- `ParseBlock(t, p)`: the block at offset p and the offset after it (41_block R122). The remainder |t| - p stops
at 0, as the rule's `rem` does. -/
def parseBlock (t : List Byte) (p : Nat) : Except CmdError (Block × Nat) :=
  if t.length - p < 2 then .error (.outOfBounds p)
  else
    let L := u16le (t.getD p 0) (t.getD (p + 1) 0)
    if L = 0 then .ok (emptyBlock, p + 2)
    else if t.length - p < L + 3 then .error (.outOfBounds p)
    else .ok (blockAt t p L, p + L + 3)

/-- With VERIFY, a non-empty block whose checksums differ is refused (41_block R123, 43_container R161). -/
def verifyBlock (verify : Bool) (b : Block) (p : Nat) : Except CmdError Unit :=
  if verify && !b.empty && !b.ok then .error (.checksumMismatch p) else .ok ()

/-- BLK_DECODE (41_block R123). -/
def blkDecode (verify : Bool) (s : State) : Except CmdError Effect := do
  checkInOut s
  let r ← parseBlock s.inAll s.cur.toNat
  verifyBlock verify r.1 s.cur.toNat
  checkOutput s r.1.payload
  .ok {
    out := some r.1.payload
    res0 := value r.1.length
    res1 := value r.1.flag.toNat
    res2 := value r.1.stored.toNat
    res3 := value r.1.computed.toNat
    res4 := value r.1.payload.length
    res5 := value (blockInfo r.1.empty r.1.ok)
    cur := value r.2 }

/-- A payload above 65534 bytes does not fit the length field (41_block R121, R124). -/
def checkPayload (n : Nat) : Except CmdError Unit :=
  if n > Config.maxPayload then .error (.encodingError n) else .ok ()

/-- BLK_ENCODE (41_block R124). -/
def blkEncode (flag : Byte) (s : State) : Except CmdError Effect := do
  checkInOut s
  checkPayload (s.len .inp)
  let out := frame flag s.inAll
  checkOutput s out
  .ok {
    out := some out
    res0 := value (s.len .inp + 4)
    res1 := value (xorsum flag s.inAll).toNat }

/-- XOR_CSUM (41_block R125). -/
def xorCsum (seed : Byte) (s : State) : Except CmdError Effect := do
  checkRegion s .inp
  .ok { res0 := value (xorsum seed s.inAll).toNat }

/-- The meaning of BLK_DECODE: decode one block at the cursor (41_block R123). -/
def execBlkDecode (verify : Bool) (s : State) : Host.Outcome State Fault Refusal := .next (s.settle (blkDecode verify s))

/-- The meaning of BLK_ENCODE: frame IN with the flag IMM8 (41_block R124). -/
def execBlkEncode (flag : Byte) (s : State) : Host.Outcome State Fault Refusal := .next (s.settle (blkEncode flag s))

/-- The meaning of XOR_CSUM: the XOR of IN with the seed IMM8 (41_block R125). -/
def execXorCsum (seed : Byte) (s : State) : Host.Outcome State Fault Refusal := .next (s.settle (xorCsum seed s))

end Sys2Proof.Machine
end

