-- ==== Sys2Proof/Machine/Header.lean ====
section
/-! DEFINITION. The header commands (42_header). -/

namespace Sys2Proof.Machine

/-- TRIM = 0x00..0x20 and 0x7F (42_header R141). -/
def isTrim (b : Byte) : Bool := decide (b.toNat ≤ 0x20) || decide (b.toNat = 0x7F)

/-- `TrimLen(nm)`: the length without the trailing TRIM bytes (42_header R141). -/
def trimLen (name : List Byte) : Nat := (name.reverse.dropWhile isTrim).length

/-- The 10-byte filename field: right-padded with spaces, truncated if longer (42_header R144). -/
def nameField (name : List Byte) : List Byte :=
  name.take Config.nameLen ++ List.replicate (Config.nameLen - name.length) (0x20 : Byte)

/-- `HeaderPayload(t, name, d, p1, p2)` (42_header R144, 30_encoding R81). -/
def headerPayload (headerType : Byte) (name : List Byte) (dataLength param1 param2 : Nat) : List Byte :=
  [headerType] ++ nameField name ++ le16 dataLength ++ le16 param1 ++ le16 param2

/-- HDR_DECODE (42_header R142). -/
def hdrDecode (s : State) : Except CmdError Effect := do
  checkInOut s
  if s.len .inp ≠ Config.headerPayloadLen then .error (.malformedHeader (s.len .inp))
  else do
    let name := s.inBytes 1 Config.nameLen
    checkOutput s name
    .ok {
      out := some name
      res0 := value (s.inByte 0).toNat
      res1 := value (u16le (s.inByte 11) (s.inByte 12))
      res2 := value (u16le (s.inByte 13) (s.inByte 14))
      res3 := value (u16le (s.inByte 15) (s.inByte 16))
      res4 := value (trimLen name) }

/-- HDR_ENCODE (42_header R143). -/
def hdrEncode (s : State) : Except CmdError Effect := do
  checkInOut s
  let name := s.inBytes 0 (min (s.len .inp) Config.nameLen)
  let out := headerPayload s.argHeaderType name s.argDataLength s.argParam1 s.argParam2
  checkOutput s out
  .ok { out := some out, res0 := value Config.headerPayloadLen }

/-- The meaning of HDR_DECODE: decode a 17-byte header payload (42_header R142). -/
def execHdrDecode (s : State) : Host.Outcome State Fault Refusal := .next (s.settle (hdrDecode s))

/-- The meaning of HDR_ENCODE: build a 17-byte header payload (42_header R143). -/
def execHdrEncode (s : State) : Host.Outcome State Fault Refusal := .next (s.settle (hdrEncode s))

end Sys2Proof.Machine
end

