-- ==== Sys2Proof/Machine/Sprite.lean ====
section
/-! DEFINITION. The sprite record commands (44_sprite): sizes, packing and unpacking of one record, the USF image
(30_encoding R86), the packed scan, the address chain, and SPR_UNPACK, SPR_PACK, ATTR_UNPACK and ATTR_PACK. -/

namespace Sys2Proof.Machine

/-- `RecordSize(w, h)` (44_sprite R181). -/
def recordSize (w h : Nat) : Nat := 5 + 9 * w * h

/-- `EntrySize(w, h)` (44_sprite R181). -/
def entrySize (w h : Nat) : Nat := 2 + 65 * w * h

/-- One sprite: an entry of a USF image (30_encoding R86). The pixels are one byte each and row-major, and so are the
attributes. -/
structure Entry where
  w : Byte
  h : Byte
  pixels : List Byte
  attrs : List Byte
  deriving DecidableEq, Repr

/-- The packed size of an entry (44_sprite R181). -/
def Entry.recordSize (e : Entry) : Nat := Sys2Proof.Machine.recordSize e.w.toNat e.h.toNat

/-- The bytes of an entry in a USF image (30_encoding R86). -/
def Entry.bytes (e : Entry) : List Byte := [e.w, e.h] ++ e.pixels ++ e.attrs

/-- pix(r, x): the byte of pixel row r, column x (30_encoding R86). -/
def Entry.pix (e : Entry) (r x : Nat) : Byte := e.pixels.getD (r * (8 * e.w.toNat) + x) 0

/-- attr(r, c): the attribute byte of cell row r, column c (30_encoding R86). -/
def Entry.attr (e : Entry) (r c : Nat) : Byte := e.attrs.getD (r * e.w.toNat + c) 0

/-! ## Packing (44_sprite R182, R186) -/

/-- The pixel byte of row r, byte column c: bit 7 - b is set when pixel 8c + b is not 0 (44_sprite R182, 30_encoding R85
and R87). -/
def packByte (e : Entry) (r c : Nat) : Byte :=
  (List.range 8).foldl (fun acc b => if e.pix r (8 * c + b) ≠ 0 then acc ||| (1#8 <<< (7 - b)) else acc) 0

/-- `PackRecord(id, nxt, e)` (44_sprite R182). -/
def packRecord (id nxt : Nat) (e : Entry) : List Byte :=
  [BitVec.ofNat 8 id] ++ le16 nxt ++ [e.w, e.h]
    ++ (List.range (8 * e.h.toNat)).flatMap (fun r => (List.range e.w.toNat).map (fun c => packByte e r c))
    ++ (List.range e.h.toNat).flatMap (fun r => (List.range e.w.toNat).map (fun c => e.attr r c))

/-- nextAddress of the record at `addr`: 0 for the last record, else the address of the next (44_sprite R186). -/
def nextAddress (addr : Nat) (e : Entry) (rest : List Entry) : Nat :=
  if rest.isEmpty then 0 else addr + e.recordSize

/-- The chain of the records from record number `id` at `addr` on (44_sprite R186). -/
def chainFrom : List Entry → Nat → Nat → Except CmdError (List Byte)
  | [], _, _ => .ok []
  | e :: rest, id, addr =>
    if nextAddress addr e rest > Config.maxU16 then .error (.encodingError (nextAddress addr e rest))
    else do
      let tail ← chainFrom rest (id + 1) (addr + e.recordSize)
      .ok (packRecord id (nextAddress addr e rest) e ++ tail)

/-- `Chain(ents, start)` (44_sprite R186). -/
def chain (ents : List Entry) (start : Nat) : Except CmdError (List Byte) := chainFrom ents 1 start

/-! ## Parsing a USF image (44_sprite R184) -/

/-- The entry of width w and height h at offset o of a USF image (30_encoding R86). -/
def entryAt (t : List Byte) (o : Nat) (w h : Byte) : Entry :=
  { w := w
    h := h
    pixels := (t.drop (o + 2)).take (64 * w.toNat * h.toNat)
    attrs := (t.drop (o + 2 + 64 * w.toNat * h.toNat)).take (w.toNat * h.toNat) }

/-- The n entries from offset o (44_sprite R184). -/
def parseEntries (t : List Byte) : Nat → Nat → Except CmdError (List Entry)
  | 0, _ => .ok []
  | n + 1, o =>
    if t.length - o < 2 then .error (.outOfBounds o)
    else
      let w := t.getD o 0
      let h := t.getD (o + 1) 0
      if w = 0 ∨ h = 0 then .error (.invalidRecord o)
      else if t.length - o < entrySize w.toNat h.toNat then .error (.outOfBounds o)
      else do
        let rest ← parseEntries t n (o + entrySize w.toNat h.toNat)
        .ok (entryAt t o w h :: rest)

/-- `ParseUSF(t)` (44_sprite R184). -/
def parseUsf (t : List Byte) : Except CmdError (List Entry) :=
  if t.length < 1 then .error (.outOfBounds 0) else parseEntries t (t.getD 0 0).toNat 1

/-! ## Unpacking (44_sprite R183, R185) -/

/-- The pixel of row r, column x of the packed record of width w at offset o: 0 or 1, bit 7 leftmost (44_sprite R183). -/
def unpackPixel (t : List Byte) (o w r x : Nat) : Byte :=
  (t.getD (o + 5 + r * w + x / 8) 0 >>> (7 - x % 8)) &&& 1

/-- `UnpackRecord(t, o, w, h)` (44_sprite R183). -/
def unpackRecord (t : List Byte) (o : Nat) (w h : Byte) : Entry :=
  { w := w
    h := h
    pixels := (List.range (8 * h.toNat)).flatMap
      (fun r => (List.range (8 * w.toNat)).map (fun x => unpackPixel t o w.toNat r x))
    attrs := (List.range h.toNat).flatMap
      (fun r => (List.range w.toNat).map (fun c => t.getD (o + 5 + 8 * w.toNat * h.toNat + r * w.toNat + c) 0)) }

/-- The result of a packed scan: the entries, where it stopped, and why (44_sprite R185). -/
structure Scan where
  ents : List Entry
  stop : Nat
  reason : StopReason
  deriving DecidableEq, Repr

/-- The stop tests of `ScanPacked` at offset o after `count` records, in the rule's order (44_sprite R185): none when a
record is unpacked there. -/
def scanStop (t : List Byte) (o count : Nat) : Option StopReason :=
  let rem := t.length - o
  let w := t.getD (o + 3) 0
  let h := t.getD (o + 4) 0
  if rem = 0 then some .exhausted
  else if t.getD o 0 = 0 then some .sentinel
  else if rem < 5 then some .short
  else if w = 0 ∨ h = 0 then some .zeroDim
  else if recordSize w.toNat h.toNat > rem then some .overrun
  else if count = Config.maxRecords then some .limit
  else none

/-- `ScanPacked` from offset o, after `count` records (44_sprite R185). Every record takes at least 14 bytes, so fuel
|t| + 1 is never used up (log 16). -/
def scanFrom (t : List Byte) : Nat → Nat → Nat → Scan
  | 0, o, _ => ⟨[], o, .exhausted⟩
  | fuel + 1, o, count =>
    match scanStop t o count with
    | some reason => ⟨[], o, reason⟩
    | none =>
      let w := t.getD (o + 3) 0
      let h := t.getD (o + 4) 0
      let rest := scanFrom t fuel (o + recordSize w.toNat h.toNat) (count + 1)
      { rest with ents := unpackRecord t o w h :: rest.ents }

/-- `ScanPacked(t)` (44_sprite R185). -/
def scanPacked (t : List Byte) : Scan := scanFrom t (t.length + 1) 0 0

/-- The USF image of a list of entries: the count, then the entries (30_encoding R86, 44_sprite R187). -/
def usfImage (ents : List Entry) : List Byte := [BitVec.ofNat 8 ents.length] ++ ents.flatMap Entry.bytes

/-! ## The commands -/

/-- SPR_UNPACK (44_sprite R187). -/
def sprUnpack (s : State) : Except CmdError Effect := do
  checkInOut s
  let scan := scanPacked s.inAll
  let out := usfImage scan.ents
  checkOutput s out
  .ok {
    out := some out
    res0 := value scan.ents.length
    res1 := value scan.stop
    res2 := value scan.reason.code
    res3 := value out.length }

/-- A start address that does not fit 16 bits (44_sprite R188). -/
def checkStart (start : Nat) : Except CmdError Unit :=
  if start > Config.maxU16 then .error (.encodingError start) else .ok ()

/-- SPR_PACK (44_sprite R188). -/
def sprPack (s : State) : Except CmdError Effect := do
  checkInOut s
  let ents ← parseUsf s.inAll
  checkStart s.argStart
  let out ← chain ents s.argStart
  checkOutput s out
  .ok {
    out := some out
    res0 := value out.length
    res1 := value ents.length
    res2 := value s.argStart }

/-- ATTR_UNPACK (44_sprite R190). -/
def attrUnpack (s : State) : Except CmdError Effect :=
  .ok {
    res0 := some ((attrInk s.argAttr).setWidth 32)
    res1 := some ((attrPaper s.argAttr).setWidth 32)
    res2 := some ((attrBright s.argAttr).setWidth 32)
    res3 := some ((attrFlash s.argAttr).setWidth 32) }

/-- ATTR_PACK (44_sprite R191). -/
def attrPack (s : State) : Except CmdError Effect :=
  .ok { res0 := some (attrJoin s.argInk s.argPaper s.argBright s.argFlash) }

/-- The meaning of SPR_UNPACK: unpack a packed record chain into a USF image (44_sprite R187). -/
def execSprUnpack (s : State) : Host.Outcome State Fault Refusal := .next (s.settle (sprUnpack s))

/-- The meaning of SPR_PACK: pack a USF image into address-chained records (44_sprite R188). -/
def execSprPack (s : State) : Host.Outcome State Fault Refusal := .next (s.settle (sprPack s))

/-- The meaning of ATTR_UNPACK: split an attribute byte (44_sprite R190). -/
def execAttrUnpack (s : State) : Host.Outcome State Fault Refusal := .next (s.settle (attrUnpack s))

/-- The meaning of ATTR_PACK: join attribute fields (44_sprite R191). -/
def execAttrPack (s : State) : Host.Outcome State Fault Refusal := .next (s.settle (attrPack s))

end Sys2Proof.Machine
end

