-- ==== Sys2Proof/Machine/Allocator.lean ====
section
/-! DEFINITION. The allocator commands (45_allocator): the layout function, LAYOUT and EXPORT. -/

namespace Sys2Proof.Machine

/-- totalBytes: the sum of the record sizes (45_allocator R211). -/
def totalBytes (ents : List Entry) : Nat := (ents.map Entry.recordSize).sum

/-- `Layout(ents)`: (total, start) below END_ADDR, or CapacityExceeded (45_allocator R211). The start 56575 - total is
negative exactly when total > 56575. -/
def computeLayout (ents : List Entry) : Except CmdError (Nat × Nat) :=
  if totalBytes ents > Config.endAddr then .error (.capacityExceeded (totalBytes ents))
  else .ok (totalBytes ents, Config.endAddr - totalBytes ents)

/-- LAYOUT (45_allocator R212). -/
def layoutCmd (s : State) : Except CmdError Effect := do
  checkRegion s .inp
  let ents ← parseUsf s.inAll
  let r ← computeLayout ents
  .ok { res0 := value r.1, res1 := value r.2, res2 := value ents.length }

/-- EXPORT (45_allocator R213). -/
def exportCmd (s : State) : Except CmdError Effect := do
  checkInAuxOut s
  let ents ← parseUsf s.inAll
  let r ← computeLayout ents
  let data ← chain ents r.2
  let name := s.auxBytes 0 (min (s.len .aux) Config.nameLen)
  let header := headerPayload Config.exportHeaderType name r.1 r.2 Config.exportParam2
  let out := frame Config.headerFlag header ++ frame Config.dataFlag data
  checkOutput s out
  .ok {
    out := some out
    res0 := value (r.1 + 25)
    res1 := value r.2
    res2 := value r.1
    res3 := value ents.length }

/-- The meaning of LAYOUT: the memory layout of the USF image in IN (45_allocator R212). -/
def execLayout (s : State) : Host.Outcome State Fault Refusal := .next (s.settle (layoutCmd s))

/-- The meaning of EXPORT: the whole encode path in one command (45_allocator R213). -/
def execExport (s : State) : Host.Outcome State Fault Refusal := .next (s.settle (exportCmd s))

end Sys2Proof.Machine
end

