-- ==== Sys2Proof/Machine/Container.lean ====
section
/-! DEFINITION. The container commands (43_container): ContainerParse, the block table of 30_encoding R83, TAP_DECODE and
TAP_ENCODE. -/

namespace Sys2Proof.Machine

/-- The scan of `ContainerParse` from offset q (43_container R161). Every iteration consumes at least 2 bytes
(43_container R164), so fuel |t| is never used up (log 16). -/
def containerFrom (t : List Byte) (verify : Bool) : Nat → Nat → Except CmdError (List Block)
  | 0, _ => .ok []
  | fuel + 1, q =>
    if q < t.length then do
      let r ← parseBlock t q
      verifyBlock verify r.1 q
      let rest ← containerFrom t verify fuel r.2
      .ok (r.1 :: rest)
    else .ok []

/-- `ContainerParse(t, verify)` (43_container R161). -/
def containerParse (t : List Byte) (verify : Bool) : Except CmdError (List Block) :=
  containerFrom t verify t.length 0

/-- Entry k of the block table, whose payload lies at offset `off` of the image (30_encoding R83). -/
def blockEntry (b : Block) (off : Nat) : List Byte :=
  le16 b.length ++ [b.flag, b.stored, b.computed, BitVec.ofNat 8 (blockInfo b.empty b.ok)]
    ++ le16 b.payload.length ++ le32 off

/-- The entries of the block table, the first payload at offset `off` (43_container R161). -/
def blockEntries : List Block → Nat → List Byte
  | [], _ => []
  | b :: rest, off => blockEntry b off ++ blockEntries rest (off + b.payload.length)

/-- `BlockTable(blocks)`: the count, the entries, the payload copies (43_container R161, 30_encoding R83). -/
def blockTable (blocks : List Block) : List Byte :=
  le32 blocks.length ++ blockEntries blocks (4 + 12 * blocks.length) ++ blocks.flatMap Block.payload

/-- TAP_DECODE (43_container R162). CUR is neither read nor written (43_container R160). -/
def tapDecode (verify : Bool) (s : State) : Except CmdError Effect := do
  checkInOut s
  let blocks ← containerParse s.inAll verify
  let out := blockTable blocks
  checkOutput s out
  .ok { out := some out, res0 := value blocks.length, res1 := value out.length }

/-- TAP_ENCODE (43_container R163). -/
def tapEncode (s : State) : Except CmdError Effect := do
  checkInAuxOut s
  checkPayload (s.len .inp)
  checkPayload (s.len .aux)
  let out := frame Config.headerFlag s.inAll ++ frame Config.dataFlag s.auxAll
  checkOutput s out
  .ok {
    out := some out
    res0 := value (s.len .inp + s.len .aux + 8)
    res1 := value (xorsum Config.headerFlag s.inAll).toNat
    res2 := value (xorsum Config.dataFlag s.auxAll).toNat }

/-- The meaning of TAP_DECODE: decode the whole IN region as a tape container (43_container R162). -/
def execTapDecode (verify : Bool) (s : State) : Host.Outcome State Fault Refusal := .next (s.settle (tapDecode verify s))

/-- The meaning of TAP_ENCODE: a header block from IN and a data block from AUX (43_container R163). -/
def execTapEncode (s : State) : Host.Outcome State Fault Refusal := .next (s.settle (tapEncode s))

end Sys2Proof.Machine
end

