-- ==== Sys2Proof/Machine/Cursor.lean ====
section
/-! DEFINITION. The cursor commands (40_cursor). -/

namespace Sys2Proof.Machine

/-- CUR_OPEN (40_cursor R101). -/
def curOpen (_s : State) : Except CmdError Effect := .ok { cur := value 0 }

/-- CUR_READ_U8 (40_cursor R102). -/
def curReadU8 (s : State) : Except CmdError Effect := do
  checkRegion s .inp
  if s.cur.toNat ≥ s.len .inp then .error (.outOfBounds s.cur.toNat)
  else .ok { res0 := value (s.inByte s.cur.toNat).toNat, cur := value (s.cur.toNat + 1) }

/-- CUR_READ_U16LE (40_cursor R103). -/
def curReadU16le (s : State) : Except CmdError Effect := do
  checkRegion s .inp
  if s.avail < 2 then .error (.outOfBounds s.cur.toNat)
  else .ok {
    res0 := value (u16le (s.inByte s.cur.toNat) (s.inByte (s.cur.toNat + 1)))
    cur := value (s.cur.toNat + 2) }

/-- CUR_READ_BYTES (40_cursor R104). -/
def curReadBytes (s : State) : Except CmdError Effect := do
  checkInOut s
  if s.avail < s.argCount then .error (.outOfBounds s.cur.toNat)
  else do
    let out := s.inBytes s.cur.toNat s.argCount
    checkOutput s out
    .ok { out := some out, res0 := value s.argCount, cur := value (s.cur.toNat + s.argCount) }

/-- CUR_AT_END (40_cursor R105). -/
def curAtEnd (s : State) : Except CmdError Effect := .ok { res0 := some (bit s.atEnd) }

/-- The meaning of CUR_OPEN: start a fresh cursor over IN (40_cursor R101). -/
def execCurOpen (s : State) : Host.Outcome State Fault Refusal := .next (s.settle (curOpen s))

/-- The meaning of CUR_READ_U8: read one byte at the cursor (40_cursor R102). -/
def execCurReadU8 (s : State) : Host.Outcome State Fault Refusal := .next (s.settle (curReadU8 s))

/-- The meaning of CUR_READ_U16LE: read a little-endian u16 at the cursor (40_cursor R103). -/
def execCurReadU16le (s : State) : Host.Outcome State Fault Refusal := .next (s.settle (curReadU16le s))

/-- The meaning of CUR_READ_BYTES: copy ARG0 bytes at the cursor to OUT (40_cursor R104). -/
def execCurReadBytes (s : State) : Host.Outcome State Fault Refusal := .next (s.settle (curReadBytes s))

/-- The meaning of CUR_AT_END: test whether the cursor is at the end (40_cursor R105). -/
def execCurAtEnd (s : State) : Host.Outcome State Fault Refusal := .next (s.settle (curAtEnd s))

end Sys2Proof.Machine
end

