-- ==== Sys2Proof/Machine/Dispatch.lean ====
section
/-! DEFINITION. The meaning of each command (30_encoding R74), one arm per constructor. -/

namespace Sys2Proof.Machine

def exec (i : Instr) (s : State) : Host.Outcome State Fault Refusal :=
  match i with
  | .curOpen => Sys2Proof.Machine.execCurOpen s
  | .curReadU8 => Sys2Proof.Machine.execCurReadU8 s
  | .curReadU16le => Sys2Proof.Machine.execCurReadU16le s
  | .curReadBytes => Sys2Proof.Machine.execCurReadBytes s
  | .curAtEnd => Sys2Proof.Machine.execCurAtEnd s
  | .blkDecode verify => Sys2Proof.Machine.execBlkDecode verify s
  | .blkEncode flag => Sys2Proof.Machine.execBlkEncode flag s
  | .xorCsum seed => Sys2Proof.Machine.execXorCsum seed s
  | .hdrDecode => Sys2Proof.Machine.execHdrDecode s
  | .hdrEncode => Sys2Proof.Machine.execHdrEncode s
  | .tapDecode verify => Sys2Proof.Machine.execTapDecode verify s
  | .tapEncode => Sys2Proof.Machine.execTapEncode s
  | .sprUnpack => Sys2Proof.Machine.execSprUnpack s
  | .sprPack => Sys2Proof.Machine.execSprPack s
  | .attrUnpack => Sys2Proof.Machine.execAttrUnpack s
  | .attrPack => Sys2Proof.Machine.execAttrPack s
  | .layout => Sys2Proof.Machine.execLayout s
  | .exportTape => Sys2Proof.Machine.execExport s

end Sys2Proof.Machine
end

