-- ==== Sys2Proof/Machine/HostAgent.lean ====
section
/-! DEFINITION. The host's accesses to the framer (10_state R32, 20_memory R55, 70_reset R265 to R268) and one step of the
host agent (00_scope R16). -/

namespace Sys2Proof.Machine

/-! ## Register accesses -/

/-- A host register write: ignored while BUSY = 1 (70_reset R265, R266), ignored unless it is an aligned 32-bit access
to a register (10_state R31, R32). -/
def State.hostRegWrite (s : State) (offset size : Nat) (v : Word) : State :=
  if s.busy then s
  else
    match registerAt offset size with
    | some r => s.writeReg r v
    | none => s

/-- The value a host register read returns: any value for RES0 to RES5 while BUSY = 1 (70_reset R268, log 5), 0 at a
reserved offset or for an access that is not an aligned 32-bit access (10_state R31, R32). -/
def State.hostRegValue (s : State) (offset size : Nat) : Word :=
  match registerAt offset size with
  | none => 0
  | some r =>
    match s.busy, resNumber r with
    | true, some k => Config.resWhileBusy s.tick k
    | _, _ => s.readReg r

/-! ## MEM accesses -/

/-- The command that PENDING holds, if its word is one (60_exceptions R234). -/
def State.pendingInstr (s : State) : Option Instr :=
  match s.pending with
  | none => none
  | some w =>
    match decode w with
    | .ok i => some i
    | .error _ => none

/-- An address lies in a region that the running command uses (30_encoding R79, 70_reset R267). -/
def State.inUsedRegion (s : State) (r : RegionId) (a : Nat) : Bool :=
  match s.pendingInstr with
  | none => false
  | some i => i.uses r && s.inRegion r a

/-- An address lies in any region that the running command uses (70_reset R267). -/
def State.inAnyUsedRegion (s : State) (a : Nat) : Bool :=
  s.inUsedRegion .inp a || s.inUsedRegion .aux a || s.inUsedRegion .out a

/-- `HostMemWrite(a, b)`: ignored at or above MEM_SIZE (20_memory R55). A write into a region of the running command is
stored and disturbs that command (70_reset R267, 93 U5, log 7); any other write behaves normally (93 U6). -/
def State.hostMemWrite (s : State) (a : Nat) (b : Byte) : State :=
  if a < s.memSize then
    { s with mem := s.mem.write a b, disturbed := s.disturbed || s.inAnyUsedRegion a }
  else s

/-- The value `HostMemRead(a)` returns: 0 at or above MEM_SIZE (20_memory R55), any value in the OUT region of the running
command (70_reset R267, 93 U4, log 6), a free value where nothing has written the byte since reset (93 U2, log 3), and
otherwise the byte last written (20_memory R61); that this holds in the IN and AUX regions of a running command too is the
model's reading (log 6, DEDUCED). -/
def State.hostMemValue (s : State) (a : Nat) : Byte :=
  if a < s.memSize then
    if s.inUsedRegion .out a then Config.outWhileBusy s.tick a
    else (s.mem.read? a).getD (Config.unwrittenByte s.tick a)
  else 0

/-! ## The host agent -/

/-- The host moves on to the op at index `pc`. -/
def State.hostGoto (s : State) (pc : Nat) : State := { s with host := { s.host with pc := pc } }

/-- The host takes note of a value it has read, and the free values move on (logs 4 and 14). A read has no other effect
(20_memory R57). -/
def State.hostNote (s : State) (v : Word) : State :=
  { s with tick := s.tick + 1, host := { s.host with readings := v :: s.host.readings } }

/-- The host performs one op: one access, as 00_scope R16 lists them, then the next op or the branch target
(30_encoding R90). -/
def State.hostPerform (s : State) : HostOp → State
  | .regWrite offset size v => (s.hostRegWrite offset size v).hostGoto (s.host.pc + 1)
  | .regRead offset size => (s.hostNote (s.hostRegValue offset size)).hostGoto (s.host.pc + 1)
  | .memWrite a b => (s.hostMemWrite a b).hostGoto (s.host.pc + 1)
  | .memRead a => (s.hostNote ((s.hostMemValue a).setWidth 32)).hostGoto (s.host.pc + 1)
  | .branch onZero offset mask target =>
    let v := s.hostRegValue offset 4
    (s.hostNote v).hostGoto (if ((v &&& mask) == 0) = onZero then target else s.host.pc + 1)

/-- One host step: the op at the host's position; a host that has come to the end of its program does nothing. -/
def State.hostStep (s : State) : State :=
  match s.host.prog[s.host.pc]? with
  | some op => s.hostPerform op
  | none => s

end Sys2Proof.Machine
end

