-- ==== Sys2Proof/Machine/Engine.lean ====
section
/-! DEFINITION. The engine step (60_exceptions R234) and whose turn it is (70_reset R271). -/

namespace Sys2Proof.Machine

/-- `EngineStep` (60_exceptions R234): the pending word is decoded; an illegal word raises IllegalCommand with the word as
its information (30_encoding R75), and a command runs its meaning. An idle engine does nothing (60_exceptions R248). -/
def engineStep (s : State) : Host.Outcome State Fault Refusal :=
  match s.pending with
  | none => .next s
  | some w =>
    match decode w with
    | .ok i => exec i s
    | .error _ => .next (s.abort (.illegalCommand w.toNat))

/-- One agent moves (00_scope R16, 70_reset R260). -/
def takeTurn (t : Turn) (s : State) : Host.Outcome State Fault Refusal :=
  match t with
  | .host => .next s.hostStep
  | .engine => engineStep s
  | .reset => .next s.platformReset

/-- Who moves when the schedule names nobody: the engine while a command is pending, else the host. That is the
interleaving in which the engine step is taken at once (70_reset R271, R272, log 9). -/
def State.defaultTurn (s : State) : Turn := if s.busy then .engine else .host

/-- One step of the whole: the agent the schedule names, taken off the schedule, else the default (log 9). -/
def nextTurn (s : State) : Host.Outcome State Fault Refusal :=
  match s.turns with
  | [] => takeTurn s.defaultTurn s
  | t :: rest => takeTurn t { s with turns := rest }

/-- The state in which the host has just written the word w to CMD and had it accepted (60_exceptions R233), and the
engine's turn is next (log 8). -/
def State.issued (s : State) (w : Word) : State := { s.accept w with turns := .engine :: s.turns }

end Sys2Proof.Machine
end

