-- ==== Sys2Proof/Safety.lean ====
section
/-! DEFINITION. What counts as a good state and a completed command, in the terms the claims use. -/

namespace Sys2Proof.Machine

/-- The invariant of the machine, kept by every step and true after reset:
MEM is canonical and lists only addresses below MEM_SIZE (20_memory R51), MEM_SIZE is legal (00_scope R7), at most one of
BUSY, DONE and ERR is 1 (10_state R25), CMD shows the pending word (10_state R33), ERRCODE and ERRINFO are 0 unless ERR is
set, and then ERRCODE is 1 to 10 (60_exceptions R231, R233), and only a running command can be disturbed (log 7). -/
structure State.Inv (s : State) : Prop where
  memCanonical : s.mem.wf
  memInside : ∀ c ∈ s.mem, c.1 < s.memSize
  sizeLegal : Config.legalMemSize s.memSize
  busyNotDone : s.busy = true → s.done = false
  busyNotErr : s.busy = true → s.err = false
  doneNotErr : s.done = true → s.err = false
  cmdShowsPending : ∀ w, s.pending = some w → s.cmd = w
  noErrorNoCode : s.err = false → s.errcode = 0 ∧ s.errinfo = 0
  errorHasCode : s.err = true → 1 ≤ s.errcode.toNat ∧ s.errcode.toNat ≤ 10
  disturbedOnlyBusy : s.disturbed = true → s.busy = true

/-- The state after a successful command, before its results: BUSY 0, DONE 1, PENDING empty (60_exceptions R235). The model's
own counter has moved on. -/
def State.completed (s : State) : State :=
  { s with pending := none, done := true, disturbed := false, tick := s.tick + 1 }

/-- The state after an error: BUSY 0, ERR 1, ERRCODE, ERRINFO = min(info, 2^32 - 1), PENDING empty, and every other
register and all of MEM as before (60_exceptions R232, R236). The model's own counter has moved on. -/
def State.aborted (s : State) (code : Byte) (info : Nat) : State :=
  { s with
    errcode := code
    errinfo := BitVec.ofNat 32 (min info 0xFFFFFFFF)
    err := true
    pending := none
    disturbed := false
    tick := s.tick + 1 }

/-- A region lies inside MEM: base + len ≤ MEM_SIZE, unbounded (30_encoding R76). -/
abbrev State.Fits (s : State) (r : RegionId) : Prop := s.base r + s.len r ≤ s.memSize

/-- OUT shares no byte with an input region; a region of length 0 shares none (30_encoding R77). -/
abbrev State.ClearOf (s : State) (r : RegionId) : Prop :=
  s.len .out = 0 ∨ s.len r = 0 ∨ s.base r + s.len r ≤ s.base .out ∨ s.base .out + s.len .out ≤ s.base r

/-- The region and overlap checks of a command that uses IN and OUT pass (30_encoding R76, R77, R79). -/
structure State.InOutReady (s : State) : Prop where
  inFits : s.Fits .inp
  outFits : s.Fits .out
  inClear : s.ClearOf .inp

/-- The region and overlap checks of a command that uses IN, AUX and OUT pass (30_encoding R76, R77, R79). -/
structure State.InAuxOutReady (s : State) : Prop where
  inFits : s.Fits .inp
  auxFits : s.Fits .aux
  outFits : s.Fits .out
  inClear : s.ClearOf .inp
  auxClear : s.ClearOf .aux

/-- MEM m holds the output at OUT_BASE of s, and every other byte as it was in s (30_encoding R78). -/
def State.WroteOut (s : State) (m : Memory) (out : List Byte) : Prop :=
  (∀ k, k < out.length → m.read? (s.outBase.toNat + k) = out[k]?)
    ∧ ∀ a, a < s.outBase.toNat ∨ s.outBase.toNat + out.length ≤ a → m.read? a = s.mem.read? a

/-- A command that uses IN and OUT refuses a region that passes MEM_SIZE, IN first, and then an OUT that overlaps IN
(30_encoding R76, R77, R79, 60_exceptions R238). -/
def InOutChecked (i : Instr) (s : State) : Prop :=
  (¬ s.Fits .inp → exec i s = .next (s.aborted 7 1))
    ∧ (s.Fits .inp → ¬ s.Fits .out → exec i s = .next (s.aborted 7 3))
    ∧ (s.Fits .inp → s.Fits .out → ¬ s.ClearOf .inp → exec i s = .next (s.aborted 8 1))

/-- A command that uses IN, AUX and OUT refuses a region that passes MEM_SIZE, in that order, and then an OUT that overlaps
IN or AUX (30_encoding R76, R77, R79, 60_exceptions R238). -/
def InAuxOutChecked (i : Instr) (s : State) : Prop :=
  (¬ s.Fits .inp → exec i s = .next (s.aborted 7 1))
    ∧ (s.Fits .inp → ¬ s.Fits .aux → exec i s = .next (s.aborted 7 2))
    ∧ (s.Fits .inp → s.Fits .aux → ¬ s.Fits .out → exec i s = .next (s.aborted 7 3))
    ∧ (s.Fits .inp → s.Fits .aux → s.Fits .out → ¬ s.ClearOf .inp → exec i s = .next (s.aborted 8 1))
    ∧ (s.Fits .inp → s.Fits .aux → s.Fits .out → s.ClearOf .inp → ¬ s.ClearOf .aux →
        exec i s = .next (s.aborted 8 2))

/-- A register value as an exact number (00_scope R17). -/
def word (n : Nat) : Word := BitVec.ofNat 32 n

/-- A sprite as 00_scope R14 and 44_sprite R181 have it: width and height 1 to 255, 64·w·h pixels that are 0 or 1, and
w·h attributes. -/
structure Entry.Valid (e : Entry) : Prop where
  widthPos : e.w ≠ 0
  heightPos : e.h ≠ 0
  pixelCount : e.pixels.length = 64 * e.w.toNat * e.h.toNat
  pixelBits : ∀ p ∈ e.pixels, p = 0 ∨ p = 1
  attrCount : e.attrs.length = e.w.toNat * e.h.toNat

/-- The target address of record k of a chain that starts at `start`: start + the sizes of the records before it
(44_sprite R186). -/
def recordAddress (start : Nat) (ents : List Entry) (k : Nat) : Nat :=
  start + ((ents.take k).map Entry.recordSize).sum

/-- A block as it stands in a container: none is the empty block, and a flag, a payload and a stored checksum, right or
wrong, are a block with its length first, low byte first (30_encoding R80). -/
def storedBlock : Option (Byte × List Byte × Byte) → List Byte
  | none => [0, 0]
  | some (flag, payload, csum) =>
    [BitVec.ofNat 8 ((payload.length + 1) % 256), BitVec.ofNat 8 ((payload.length + 1) / 256), flag] ++ payload ++ [csum]

/-- What a stored block decodes to (41_block R122, 43_container R165). -/
def decodedBlock : Option (Byte × List Byte × Byte) → Block
  | none => { length := 0, empty := true, flag := 0, stored := 0, computed := 0, ok := false, payload := [] }
  | some (flag, payload, csum) =>
    { length := payload.length + 1
      empty := false
      flag := flag
      stored := csum
      computed := payload.foldl (fun x b => x ^^^ b) flag
      ok := decide (payload.foldl (fun x b => x ^^^ b) flag = csum)
      payload := payload }

/-- A stored block passes VERIFY: it is empty, or its checksum is the XOR of its flag and payload (43_container R161). -/
def checksumAgrees : Option (Byte × List Byte × Byte) → Bool
  | none => true
  | some (flag, payload, csum) => decide (payload.foldl (fun x b => x ^^^ b) flag = csum)

/-- An address lies outside the OUT region of the running command, if one runs that uses OUT (70_reset R267). -/
def State.OutsideRunningOut (s : State) (a : Nat) : Prop :=
  ∀ (w : Word) (i : Instr), s.pending = some w → decode w = .ok i → i.uses .out = true →
    a < s.base .out ∨ s.base .out + s.len .out ≤ a

/-- Every register reads, at the offset 10_state R22 gives it, the value of its reset column. -/
def State.ReadsResetValues (s : State) : Prop :=
  s.hostRegValue 0x00 4 = 0x54415007 ∧ s.hostRegValue 0x08 4 = 0x00000008
    ∧ ∀ offset ∈ [0x04, 0x0C, 0x10, 0x14, 0x18, 0x1C, 0x20, 0x24, 0x28, 0x2C, 0x30, 0x34, 0x38, 0x3C, 0x40, 0x44, 0x48,
        0x4C, 0x50, 0x54], s.hostRegValue offset 4 = 0

end Sys2Proof.Machine
end

