-- ==== Sys2Proof/Certificates/Slice0/Obligations.lean ====
section
/-! DEFINITION. The statements for the provers. Each cites the rule of spec/ it formalises. A statement about a running
command is about one that no host MEM write has disturbed, where it names that hypothesis (70_reset R267); what a byte that
nothing has written reads as is free (log 3), and every statement holds for every value of it. -/

open Sys2Proof Sys2Proof.Machine

/-! ## Encoding -/

/-- 30_encoding R71, R74, R89 and 20_memory R53: every command decodes from its own word, and from that word's bytes. -/
def Obligations.EveryCommandDecodesFromItsEncoding : Prop :=
  ∀ i : Instr, i.wellFormed = true → decode (encode i) = .ok i ∧ decodeBytes (encodeBytes i) = .ok i

/-- 30_encoding R74, R75: a word that decodes is the word of the command it decodes to, so no bit of a word is dropped. -/
def Obligations.ADecodedWordIsItsCommandsEncoding : Prop :=
  ∀ (w : Word) (i : Instr), decode w = .ok i → encode i = w

/-- 30_encoding R74: "Each row's word must satisfy `word & mask == match`": a word decodes exactly when a row accepts it,
to the command of that row, and no word is accepted by two rows (60_exceptions R234). -/
def Obligations.AWordDecodesExactlyWhenATableRowAcceptsIt : Prop :=
  (∀ w : Word, (∃ i, decode w = .ok i) ↔ ∃ r ∈ opcodeTable, w &&& r.mask = r.pattern)
    ∧ (∀ (w : Word) (i : Instr), decode w = .ok i →
        ∀ r ∈ opcodeTable, w &&& r.mask = r.pattern → r.mnemonic = i.mnemonic)
    ∧ ∀ w : Word, ∀ r ∈ opcodeTable, ∀ r' ∈ opcodeTable,
        w &&& r.mask = r.pattern → w &&& r'.mask = r'.pattern → r = r'

/-- 30_encoding R74, R89: one word of each family, as the spec writes it. -/
def Obligations.SpecWordsDecodeAsWritten : Prop :=
  decode 0x00000004 = .ok .curReadBytes ∧ decode 0x00000110 = .ok (.blkDecode true)
    ∧ decode 0x0000FF11 = .ok (.blkEncode 0xFF) ∧ decode 0x00000712 = .ok (.xorCsum 7)
    ∧ decode 0x00000021 = .ok .hdrEncode ∧ decode 0x00000130 = .ok (.tapDecode true)
    ∧ decode 0x00000041 = .ok .sprPack ∧ decode 0x00000050 = .ok .layout ∧ decode 0x00000060 = .ok .exportTape

/-- 30_encoding R75: "A command word that matches no row of rule R74 is illegal, and the command raises IllegalCommand with
ERRINFO = the word". Whose turn it is, and that the engine moves when the schedule is empty, is the model's choice (log 9, a
DESIGN CHOICE). -/
def Obligations.UnmatchedWordsRaiseIllegalCommand : Prop :=
  ∀ (s : State) (w : Word), s.pending = some w → (∀ r ∈ opcodeTable, w &&& r.mask ≠ r.pattern) →
    (s.turns = [] → step s = .next (s.aborted 6 w.toNat))
      ∧ (∀ rest, s.turns = .engine :: rest → step s = .next (State.aborted { s with turns := rest } 6 w.toNat))
      ∧ (s.aborted 6 w.toNat).errinfo = w

/-! ## Steps -/

/-- 60_exceptions R234: a pending word that decodes runs its command, when the engine's turn is next or nobody's turn is
scheduled. The schedule, and that the engine moves when it is empty, is the model's choice (log 9, a DESIGN CHOICE). -/
def Obligations.StepRunsTheDecodedCommand : Prop :=
  ∀ (s : State) (w : Word) (i : Instr), s.pending = some w → decode w = .ok i → i.wellFormed = true →
    (s.turns = [] → step s = exec i s)
      ∧ ∀ rest, s.turns = .engine :: rest → step s = exec i { s with turns := rest }

/-- No step stops the machine. For the engine step of a command this is 60_exceptions R249; that no step of the host, the
engine or the platform faults or refuses is the model's: its Fault type is empty (log 15, DEDUCED), it takes the any-value
option where the spec would let it fault on an unwritten byte (log 3, a DESIGN CHOICE) or refuse a host write into a running
command's region (log 7, a DESIGN CHOICE). -/
def Obligations.EveryStepAnswersANextState : Prop :=
  ∀ s : State, ∃ t, step s = .next t

/-- 60_exceptions R234 to R237: a command empties PENDING and either completes, leaving ERR, ERRCODE and ERRINFO alone, or
aborts with a code of 1 to 10 and changes nothing but the error state. Holds for a disturbed command too. -/
def Obligations.EveryCommandCompletesOrAbortsPrecisely : Prop :=
  ∀ (i : Instr) (s : State), ∃ t, exec i s = .next t ∧ t.pending = none
    ∧ ((t.done = true ∧ t.err = s.err ∧ t.errcode = s.errcode ∧ t.errinfo = s.errinfo)
      ∨ ∃ (code : Byte) (info : Nat), 1 ≤ code.toNat ∧ code.toNat ≤ 10 ∧ t = s.aborted code info)

/-- Every step keeps the invariant, from every state that meets it (20_memory R51, 10_state R25, R33, 60_exceptions R231,
R233, R235, R236). -/
def Obligations.EveryStepKeepsTheInvariant : Prop :=
  ∀ s t : State, s.Inv → step s = .next t → t.Inv

/-- The invariant holds right after reset, at every legal MEM_SIZE and at the one of log 1 (a DESIGN CHOICE). -/
def Obligations.ResetMeetsTheInvariant : Prop :=
  (∀ n, Config.legalMemSize n → (State.resetWith n).Inv) ∧ State.reset.Inv

/-! ## What a command may touch -/

/-- 20_memory R51, 10_state R27, R29, R30, R24: a command changes no region register, no ARG register, not CMD, and no byte
of MEM outside its OUT region; a command that does not use OUT changes no byte at all. Holds for a disturbed command too. -/
def Obligations.CommandsWriteOnlyInsideOut : Prop :=
  ∀ (i : Instr) (s t : State), exec i s = .next t →
    t.memSize = s.memSize ∧ t.cmd = s.cmd ∧ t.inBase = s.inBase ∧ t.inLen = s.inLen ∧ t.auxBase = s.auxBase
      ∧ t.auxLen = s.auxLen ∧ t.outBase = s.outBase ∧ t.outLen = s.outLen ∧ t.arg0 = s.arg0 ∧ t.arg1 = s.arg1
      ∧ t.arg2 = s.arg2 ∧ t.arg3 = s.arg3 ∧ t.turns = s.turns ∧ t.host = s.host
      ∧ (∀ a, a < s.outBase.toNat ∨ s.outBase.toNat + s.outLen.toNat ≤ a → t.mem.read? a = s.mem.read? a)
      ∧ (i.uses .out = false → t.mem = s.mem)

/-- 20_memory R66: "The engine never writes a byte of the IN or AUX region of the command it runs." -/
def Obligations.InputRegionsAreNeverWritten : Prop :=
  ∀ (i : Instr) (s t : State) (r : RegionId) (a : Nat), i.uses r = true → r ≠ .out →
    s.base r ≤ a → a < s.base r + s.len r → exec i s = .next t → t.mem.read? a = s.mem.read? a

/-- 20_memory R51: "The engine reads MEM only inside the IN and AUX regions of the command it runs": with any other bytes
elsewhere the command ends in the same way with the same results, and each byte of MEM is either written the same in both
runs or left as it was in both. -/
def Obligations.CommandsReadOnlyTheirInputRegions : Prop :=
  ∀ (i : Instr) (s t : State) (m : Memory),
    (∀ r a, i.uses r = true → r ≠ .out → s.base r ≤ a → a < s.base r + s.len r → m.read? a = s.mem.read? a) →
    exec i s = .next t →
    ∃ t', exec i { s with mem := m } = .next t' ∧ { t' with mem := t.mem } = t
      ∧ ∀ a, (t.mem.read? a ≠ none ∧ t'.mem.read? a = t.mem.read? a)
        ∨ (t.mem.read? a = s.mem.read? a ∧ t'.mem.read? a = m.read? a)

/-- 10_state R27, 00_scope R10, 20_memory R60 and R61: the regions are the MEM bytes that their base and length registers
name, and byte i of a region, alone or in a sequence, is the byte last written at its base + i. -/
def Obligations.RegionReadsGiveTheBytesOfMem : Prop :=
  ∀ s : State,
    s.base .inp = s.inBase.toNat ∧ s.len .inp = s.inLen.toNat ∧ s.base .aux = s.auxBase.toNat
      ∧ s.len .aux = s.auxLen.toNat ∧ s.base .out = s.outBase.toNat ∧ s.len .out = s.outLen.toNat
      ∧ (∀ a n, (s.inBytes a n).length = n ∧ (s.auxBytes a n).length = n)
      ∧ (s.disturbed = false → ∀ b : Byte,
        (∀ i, s.mem.read? (s.inBase.toNat + i) = some b → s.inByte i = b)
          ∧ (∀ a n k, k < n → s.mem.read? (s.inBase.toNat + a + k) = some b → (s.inBytes a n)[k]? = some b)
          ∧ (∀ a n k, k < n → s.mem.read? (s.auxBase.toNat + a + k) = some b → (s.auxBytes a n)[k]? = some b))
      ∧ ∀ a n k, k < n → (s.inBytes a n)[k]? = some (s.inByte (a + k))

/-- 30_encoding R79: "A command that does not use a region ignores its registers entirely" (CUR_AT_END reads IN_LEN as a
register, 40_cursor R105, so IN_LEN is left out for it); and which command uses which region. -/
def Obligations.UnusedRegionRegistersAreIgnored : Prop :=
  (∀ i : Instr,
    (i.uses .inp = false ↔ i ∈ [.curOpen, .curAtEnd, .attrUnpack, .attrPack])
      ∧ (i.uses .aux = true ↔ i ∈ [.tapEncode, .exportTape])
      ∧ (i.uses .out = false ↔
        i ∈ [.curOpen, .curAtEnd, .attrUnpack, .attrPack, .curReadU8, .curReadU16le, .layout] ∨ ∃ seed, i = .xorCsum seed))
  ∧ ∀ (i : Instr) (s t : State) (b l : Word), exec i s = .next t →
    (i.uses .aux = false →
        exec i { s with auxBase := b, auxLen := l } = .next { t with auxBase := b, auxLen := l })
      ∧ (i.uses .out = false →
        exec i { s with outBase := b, outLen := l } = .next { t with outBase := b, outLen := l })
      ∧ (i.uses .inp = false → exec i { s with inBase := b } = .next { t with inBase := b })
      ∧ (i.uses .inp = false → i ≠ .curAtEnd → exec i { s with inLen := l } = .next { t with inLen := l })

/-- 10_state R21 and 40_cursor R106: only CUR_OPEN, the cursor reads and BLK_DECODE move CUR, none but CUR_OPEN moves it
back, and a command that moves it forward leaves it at or before IN_LEN. -/
def Obligations.OnlyCursorCommandsMoveTheCursor : Prop :=
  ∀ (i : Instr) (s t : State), exec i s = .next t → t.cur ≠ s.cur →
    (i = .curOpen ∧ t.cur = 0)
      ∨ ((i = .curReadU8 ∨ i = .curReadU16le ∨ i = .curReadBytes ∨ ∃ v, i = .blkDecode v)
        ∧ s.cur.toNat < t.cur.toNat ∧ t.cur.toNat ≤ s.inLen.toNat)

/-! ## The cursor commands -/

/-- 40_cursor R101: CUR = 0, AT_END becomes (IN_LEN = 0), nothing else is written and no region is checked. -/
def Obligations.CurOpenStartsAFreshCursor : Prop :=
  encode .curOpen = 0x00000001 ∧ ∀ s : State, s.disturbed = false →
    exec .curOpen s = .next { s.completed with cur := 0 }
      ∧ State.atEnd { s.completed with cur := 0 } = decide (s.inLen = 0)

/-- 40_cursor R102. -/
def Obligations.CurReadU8ReadsTheByteAtTheCursor : Prop :=
  encode .curReadU8 = 0x00000002 ∧ ∀ s : State, s.disturbed = false →
    (¬ s.Fits .inp → exec .curReadU8 s = .next (s.aborted 7 1))
      ∧ (s.Fits .inp → s.inLen.toNat ≤ s.cur.toNat → exec .curReadU8 s = .next (s.aborted 1 s.cur.toNat))
      ∧ (s.Fits .inp → s.cur.toNat < s.inLen.toNat →
        exec .curReadU8 s =
          .next { s.completed with res0 := (s.inByte s.cur.toNat).setWidth 32, cur := s.cur + 1 })

/-- 40_cursor R103. -/
def Obligations.CurReadU16leReadsTwoBytesLowFirst : Prop :=
  encode .curReadU16le = 0x00000003 ∧ ∀ s : State, s.disturbed = false →
    (¬ s.Fits .inp → exec .curReadU16le s = .next (s.aborted 7 1))
      ∧ (s.Fits .inp → s.inLen.toNat < s.cur.toNat + 2 → exec .curReadU16le s = .next (s.aborted 1 s.cur.toNat))
      ∧ (s.Fits .inp → s.cur.toNat + 2 ≤ s.inLen.toNat →
        exec .curReadU16le s =
          .next { s.completed with
            res0 := (s.inByte s.cur.toNat).setWidth 32 ||| ((s.inByte (s.cur.toNat + 1)).setWidth 32 <<< 8)
            cur := s.cur + 2 })

/-- 40_cursor R104. `avail` is IN_LEN - CUR, or 0 when CUR is past IN_LEN. -/
def Obligations.CurReadBytesCopiesToOut : Prop :=
  encode .curReadBytes = 0x00000004 ∧ ∀ s : State, s.disturbed = false →
    InOutChecked .curReadBytes s
      ∧ (s.InOutReady → s.inLen.toNat - s.cur.toNat < s.arg0.toNat →
        exec .curReadBytes s = .next (s.aborted 1 s.cur.toNat))
      ∧ (s.InOutReady → s.arg0.toNat ≤ s.inLen.toNat - s.cur.toNat → s.outLen.toNat < s.arg0.toNat →
        exec .curReadBytes s = .next (s.aborted 9 s.arg0.toNat))
      ∧ (s.InOutReady → s.arg0.toNat ≤ s.inLen.toNat - s.cur.toNat → s.arg0.toNat ≤ s.outLen.toNat →
        ∃ m, exec .curReadBytes s = .next { s.completed with mem := m, res0 := s.arg0, cur := s.cur + s.arg0 }
          ∧ s.WroteOut m (s.inBytes s.cur.toNat s.arg0.toNat))

/-- 40_cursor R105. -/
def Obligations.CurAtEndTestsTheCursor : Prop :=
  encode .curAtEnd = 0x00000005 ∧ ∀ s : State, s.disturbed = false →
    exec .curAtEnd s = .next { s.completed with res0 := if s.inLen.toNat ≤ s.cur.toNat then 1 else 0 }

/-! ## The block commands -/

/-- 41_block R123, with ParseBlock's cases (R122) written out: L is the length field at the cursor. -/
def Obligations.BlkDecodeDecodesTheBlockAtTheCursor : Prop :=
  encode (.blkDecode false) = 0x00000010 ∧ encode (.blkDecode true) = 0x00000110 ∧
  ∀ (verify : Bool) (s : State) (cur avail L : Nat) (flag stored computed : Byte) (payload : List Byte),
    s.disturbed = false → cur = s.cur.toNat → avail = s.inLen.toNat - cur →
    L = (s.inByte cur).toNat + 256 * (s.inByte (cur + 1)).toNat → flag = s.inByte (cur + 2) →
    payload = s.inBytes (cur + 3) (L - 1) → stored = s.inByte (cur + 2 + L) →
    computed = payload.foldl (fun x b => x ^^^ b) flag →
    InOutChecked (.blkDecode verify) s
      ∧ (s.InOutReady → avail < 2 → exec (.blkDecode verify) s = .next (s.aborted 1 cur))
      ∧ (s.InOutReady → 2 ≤ avail → L = 0 →
        exec (.blkDecode verify) s =
          .next { s.completed with res0 := 0, res1 := 0, res2 := 0, res3 := 0, res4 := 0, res5 := 1, cur := s.cur + 2 })
      ∧ (s.InOutReady → 2 ≤ avail → L ≠ 0 → avail < L + 3 → exec (.blkDecode verify) s = .next (s.aborted 1 cur))
      ∧ (s.InOutReady → L ≠ 0 → L + 3 ≤ avail → verify = true → computed ≠ stored →
        exec (.blkDecode verify) s = .next (s.aborted 5 cur))
      ∧ (s.InOutReady → L ≠ 0 → L + 3 ≤ avail → (verify = true → computed = stored) → s.outLen.toNat < L - 1 →
        exec (.blkDecode verify) s = .next (s.aborted 9 (L - 1)))
      ∧ (s.InOutReady → L ≠ 0 → L + 3 ≤ avail → (verify = true → computed = stored) → L - 1 ≤ s.outLen.toNat →
        ∃ m, exec (.blkDecode verify) s =
            .next { s.completed with
              mem := m
              res0 := word L
              res1 := flag.setWidth 32
              res2 := stored.setWidth 32
              res3 := computed.setWidth 32
              res4 := word (L - 1)
              res5 := if computed = stored then 2 else 0
              cur := s.cur + word (L + 3) }
          ∧ s.WroteOut m payload)

/-- 41_block R124. -/
def Obligations.BlkEncodeFramesTheInRegion : Prop :=
  (∀ flag : Byte, encode (.blkEncode flag) = (flag.setWidth 32 <<< 8) ||| 0x11) ∧
  ∀ (flag : Byte) (s : State) (n : Nat) (payload : List Byte) (csum : Byte),
    s.disturbed = false → n = s.inLen.toNat → payload = s.inBytes 0 n →
    csum = payload.foldl (fun x b => x ^^^ b) flag →
    InOutChecked (.blkEncode flag) s
      ∧ (s.InOutReady → 65534 < n → exec (.blkEncode flag) s = .next (s.aborted 3 n))
      ∧ (s.InOutReady → n ≤ 65534 → s.outLen.toNat < n + 4 → exec (.blkEncode flag) s = .next (s.aborted 9 (n + 4)))
      ∧ (s.InOutReady → n ≤ 65534 → n + 4 ≤ s.outLen.toNat →
        ∃ m, exec (.blkEncode flag) s =
            .next { s.completed with mem := m, res0 := word (n + 4), res1 := csum.setWidth 32 }
          ∧ s.WroteOut m
            ([BitVec.ofNat 8 ((n + 1) % 256), BitVec.ofNat 8 ((n + 1) / 256), flag] ++ payload ++ [csum]))

/-- 41_block R125. -/
def Obligations.XorCsumSumsTheInRegion : Prop :=
  (∀ seed : Byte, encode (.xorCsum seed) = (seed.setWidth 32 <<< 8) ||| 0x12) ∧
  ∀ (seed : Byte) (s : State), s.disturbed = false →
    (¬ s.Fits .inp → exec (.xorCsum seed) s = .next (s.aborted 7 1))
      ∧ (s.Fits .inp → exec (.xorCsum seed) s =
          .next { s.completed with
            res0 := ((s.inBytes 0 s.inLen.toNat).foldl (fun x b => x ^^^ b) seed).setWidth 32 })

/-- 41_block R126, laws 1 to 4. In law 1 other blocks may follow. -/
def Obligations.FramingLaws : Prop :=
  (∀ (flag : Byte) (payload rest : List Byte), payload.length ≤ 65534 →
    ∃ b, parseBlock (frame flag payload ++ rest) 0 = .ok (b, payload.length + 4) ∧ b.length = payload.length + 1
      ∧ b.flag = flag ∧ b.payload = payload ∧ b.stored = xorsum flag payload ∧ b.ok = true)
    ∧ (∀ (flag : Byte) (payload : List Byte), xorsum 0 ((frame flag payload).drop 2) = 0)
    ∧ (∀ (flag : Byte) (p q : List Byte), p.Perm q → xorsum flag p = xorsum flag q)
    ∧ ∀ (flag : Byte) (payload : List Byte) (k : Nat) (x : Byte), payload.length ≤ 65534 → k < payload.length + 2 →
      (frame flag payload)[2 + k]? ≠ some x →
      ∃ b, parseBlock ((frame flag payload).set (2 + k) x) 0 = .ok (b, payload.length + 4) ∧ b.ok = false

/-! ## The header commands -/

/-- 42_header R141: TrimLen drops exactly the trailing bytes 0x00 to 0x20 and 0x7F. -/
def Obligations.TrimLenDropsTheTrailingTrimBytes : Prop :=
  ∀ name : List Byte, trimLen name ≤ name.length
    ∧ (∀ (k : Nat) (b : Byte), trimLen name ≤ k → name[k]? = some b → b.toNat ≤ 0x20 ∨ b.toNat = 0x7F)
    ∧ ∀ (k : Nat) (b : Byte), trimLen name = k + 1 → name[k]? = some b → 0x20 < b.toNat ∧ b.toNat ≠ 0x7F

/-- 42_header R142. -/
def Obligations.HdrDecodeReadsTheHeaderFields : Prop :=
  encode .hdrDecode = 0x00000020 ∧ ∀ s : State, s.disturbed = false →
    InOutChecked .hdrDecode s
      ∧ (s.InOutReady → s.inLen.toNat ≠ 17 → exec .hdrDecode s = .next (s.aborted 2 s.inLen.toNat))
      ∧ (s.InOutReady → s.inLen.toNat = 17 → s.outLen.toNat < 10 → exec .hdrDecode s = .next (s.aborted 9 10))
      ∧ (s.InOutReady → s.inLen.toNat = 17 → 10 ≤ s.outLen.toNat →
        ∃ m, exec .hdrDecode s =
            .next { s.completed with
              mem := m
              res0 := (s.inByte 0).setWidth 32
              res1 := word ((s.inByte 11).toNat + 256 * (s.inByte 12).toNat)
              res2 := word ((s.inByte 13).toNat + 256 * (s.inByte 14).toNat)
              res3 := word ((s.inByte 15).toNat + 256 * (s.inByte 16).toNat)
              res4 := word (trimLen (s.inBytes 1 10)) }
          ∧ s.WroteOut m (s.inBytes 1 10))

/-- 42_header R143, with HeaderPayload (R144) written out. -/
def Obligations.HdrEncodeBuildsTheHeader : Prop :=
  encode .hdrEncode = 0x00000021 ∧ ∀ s : State, s.disturbed = false →
    InOutChecked .hdrEncode s
      ∧ (s.InOutReady → s.outLen.toNat < 17 → exec .hdrEncode s = .next (s.aborted 9 17))
      ∧ (s.InOutReady → 17 ≤ s.outLen.toNat →
        ∃ m, exec .hdrEncode s = .next { s.completed with mem := m, res0 := 17 }
          ∧ s.WroteOut m
            ([s.arg0.extractLsb' 0 8] ++ s.inBytes 0 (min s.inLen.toNat 10) ++ List.replicate (10 - s.inLen.toNat) 0x20
              ++ [s.arg1.extractLsb' 0 8, s.arg1.extractLsb' 8 8, s.arg2.extractLsb' 0 8, s.arg2.extractLsb' 8 8,
                s.arg3.extractLsb' 0 8, s.arg3.extractLsb' 8 8]))

/-- 42_header R145: HDR_DECODE of HeaderPayload gives the fields back, and the name back when it has at most 10 bytes and
does not end in a TRIM byte. -/
def Obligations.HeaderDecodeInvertsHeaderPayload : Prop :=
  (∀ (s : State) (t : Byte) (name : List Byte) (d p1 p2 : Nat), s.disturbed = false → s.InOutReady →
    10 ≤ s.outLen.toNat → d < 65536 → p1 < 65536 → p2 < 65536 → s.inAll = headerPayload t name d p1 p2 →
    ∃ m, exec .hdrDecode s =
        .next { s.completed with
          mem := m
          res0 := t.setWidth 32
          res1 := word d
          res2 := word p1
          res3 := word p2
          res4 := word (trimLen (nameField name)) }
      ∧ s.WroteOut m (nameField name))
    ∧ ∀ name : List Byte, name.length ≤ 10 → trimLen name = name.length →
      (nameField name).take (trimLen (nameField name)) = name

/-! ## The container commands -/

/-- 43_container R161: the scan of concatenated stored blocks finds each in order, keeping one whose checksum differs, with ok
false, unless VERIFY is set; what follows blocks that pass decides the error: with VERIFY a block whose checksum differs is
ChecksumMismatch at its own offset, and a length field or a body cut short is OutOfBounds at its own offset. -/
def Obligations.ContainerParseFindsEveryBlock : Prop :=
  ∀ (verify : Bool) (bs : List (Option (Byte × List Byte × Byte))) (image : List Byte),
    (∀ flag payload csum, some (flag, payload, csum) ∈ bs → payload.length ≤ 65534) →
    (verify = true → ∀ b ∈ bs, checksumAgrees b = true) → image = bs.flatMap storedBlock →
    containerParse image verify = .ok (bs.map decodedBlock)
      ∧ (∀ x : Byte, containerParse (image ++ [x]) verify = .error (.outOfBounds image.length))
      ∧ (∀ (lo hi : Byte) (rest : List Byte), lo.toNat + 256 * hi.toNat ≠ 0 → rest.length < lo.toNat + 256 * hi.toNat + 1 →
        containerParse (image ++ lo :: hi :: rest) verify = .error (.outOfBounds image.length))
      ∧ ∀ (flag : Byte) (payload : List Byte) (csum : Byte) (rest : List Byte), verify = true → payload.length ≤ 65534 →
        payload.foldl (fun x b => x ^^^ b) flag ≠ csum →
        containerParse (image ++ storedBlock (some (flag, payload, csum)) ++ rest) verify
          = .error (.checksumMismatch image.length)

/-- 30_encoding R83 and 20_memory R52: the image is 4 + 12N + Σ plen bytes, the count stands first as a u32, entry k stands at
4 + 12k, and block k's payload at 4 + 12N + Σ of the payloads before it; the u16 and u32 fields have their low byte first. -/
def Obligations.BlockTableLayout : Prop :=
  ∀ (bs : List Block) (n : Nat), n = bs.length →
    (blockTable bs).length = 4 + 12 * n + (bs.map (fun b => b.payload.length)).sum
      ∧ (blockTable bs).take 4 =
        [BitVec.ofNat 8 (n % 256), BitVec.ofNat 8 (n / 256 % 256), BitVec.ofNat 8 (n / 65536 % 256),
          BitVec.ofNat 8 (n / 16777216 % 256)]
      ∧ ∀ (k : Nat) (b : Block) (off : Nat), bs[k]? = some b →
        off = 4 + 12 * n + ((bs.take k).map (fun c => c.payload.length)).sum →
        ((blockTable bs).drop (4 + 12 * k)).take 12 =
            [BitVec.ofNat 8 (b.length % 256), BitVec.ofNat 8 (b.length / 256 % 256), b.flag, b.stored, b.computed,
              BitVec.ofNat 8 ((if b.empty then 1 else 0) + (if b.ok then 2 else 0)),
              BitVec.ofNat 8 (b.payload.length % 256), BitVec.ofNat 8 (b.payload.length / 256 % 256),
              BitVec.ofNat 8 (off % 256), BitVec.ofNat 8 (off / 256 % 256), BitVec.ofNat 8 (off / 65536 % 256),
              BitVec.ofNat 8 (off / 16777216 % 256)]
          ∧ ((blockTable bs).drop off).take b.payload.length = b.payload

/-- 43_container R162, in terms of ContainerParse and BlockTable. -/
def Obligations.TapDecodeWritesTheBlockTable : Prop :=
  encode (.tapDecode false) = 0x00000030 ∧ encode (.tapDecode true) = 0x00000130 ∧
  ∀ (verify : Bool) (s : State), s.disturbed = false →
    InOutChecked (.tapDecode verify) s
      ∧ (∀ e, s.InOutReady → containerParse (s.inBytes 0 s.inLen.toNat) verify = .error e →
        ∃ q, (e = .outOfBounds q ∧ exec (.tapDecode verify) s = .next (s.aborted 1 q))
          ∨ (e = .checksumMismatch q ∧ verify = true ∧ exec (.tapDecode verify) s = .next (s.aborted 5 q)))
      ∧ (∀ blocks, s.InOutReady → containerParse (s.inBytes 0 s.inLen.toNat) verify = .ok blocks →
        s.outLen.toNat < (blockTable blocks).length →
        exec (.tapDecode verify) s = .next (s.aborted 9 (blockTable blocks).length))
      ∧ (∀ blocks, s.InOutReady → containerParse (s.inBytes 0 s.inLen.toNat) verify = .ok blocks →
        (blockTable blocks).length ≤ s.outLen.toNat →
        ∃ m, exec (.tapDecode verify) s =
            .next { s.completed with mem := m, res0 := word blocks.length, res1 := word (blockTable blocks).length }
          ∧ s.WroteOut m (blockTable blocks))

/-- 43_container R163. -/
def Obligations.TapEncodeFramesHeaderAndData : Prop :=
  encode .tapEncode = 0x00000031 ∧
  ∀ (s : State) (n k : Nat) (header data : List Byte) (hsum dsum : Byte),
    s.disturbed = false → n = s.inLen.toNat → k = s.auxLen.toNat → header = s.inBytes 0 n → data = s.auxBytes 0 k →
    hsum = header.foldl (fun x b => x ^^^ b) 0 → dsum = data.foldl (fun x b => x ^^^ b) 255 →
    InAuxOutChecked .tapEncode s
      ∧ (s.InAuxOutReady → 65534 < n → exec .tapEncode s = .next (s.aborted 3 n))
      ∧ (s.InAuxOutReady → n ≤ 65534 → 65534 < k → exec .tapEncode s = .next (s.aborted 3 k))
      ∧ (s.InAuxOutReady → n ≤ 65534 → k ≤ 65534 → s.outLen.toNat < n + k + 8 →
        exec .tapEncode s = .next (s.aborted 9 (n + k + 8)))
      ∧ (s.InAuxOutReady → n ≤ 65534 → k ≤ 65534 → n + k + 8 ≤ s.outLen.toNat →
        ∃ m, exec .tapEncode s =
            .next { s.completed with
              mem := m
              res0 := word (n + k + 8)
              res1 := hsum.setWidth 32
              res2 := dsum.setWidth 32 }
          ∧ s.WroteOut m
            ([BitVec.ofNat 8 ((n + 1) % 256), BitVec.ofNat 8 ((n + 1) / 256), 0] ++ header ++ [hsum]
              ++ [BitVec.ofNat 8 ((k + 1) % 256), BitVec.ofNat 8 ((k + 1) / 256), 255] ++ data ++ [dsum]))

/-! ## The sprite commands -/

/-- 30_encoding R84, R85, R87: the bytes of a packed record. Bit 7 - b of pixel byte (r, c) is pixel (r, 8c + b). -/
def Obligations.PackedRecordLayout : Prop :=
  ∀ (id nxt : Nat) (e : Entry) (w h : Nat), w = e.w.toNat → h = e.h.toNat →
    (packRecord id nxt e).length = 5 + 9 * w * h
      ∧ (packRecord id nxt e).take 5 =
        [BitVec.ofNat 8 id, BitVec.ofNat 8 (nxt % 256), BitVec.ofNat 8 (nxt / 256), e.w, e.h]
      ∧ (∀ r c, r < 8 * h → c < w → ∃ x : Byte, (packRecord id nxt e)[5 + r * w + c]? = some x
        ∧ ∀ b, b < 8 → x.getLsbD (7 - b) = decide (e.pixels.getD (r * (8 * w) + (8 * c + b)) 0 ≠ 0))
      ∧ ∀ r c, r < h → c < w →
        (packRecord id nxt e)[5 + 8 * w * h + r * w + c]? = some (e.attrs.getD (r * w + c) 0)

/-- 44_sprite R186 and R189 law 2: the chain gives record k the id k + 1 and the address of the record after it, 0 for the
last; and it fails exactly at the first nextAddress that does not fit 16 bits. -/
def Obligations.ChainLinksEachRecordToTheNext : Prop :=
  ∀ (ents : List Entry) (start : Nat),
    (∀ out, chain ents start = .ok out →
      out.length = (ents.map Entry.recordSize).sum
        ∧ (∀ k, k + 1 < ents.length → recordAddress start ents (k + 1) ≤ 0xFFFF)
        ∧ ∀ (k : Nat) (e : Entry), ents[k]? = some e →
          (out.drop (((ents.take k).map Entry.recordSize).sum)).take e.recordSize =
            packRecord (k + 1) (if k + 1 = ents.length then 0 else recordAddress start ents (k + 1)) e)
    ∧ (∀ err, chain ents start = .error err →
      ∃ k, k + 1 < ents.length ∧ 0xFFFF < recordAddress start ents (k + 1)
        ∧ (∀ j, j < k → recordAddress start ents (j + 1) ≤ 0xFFFF)
        ∧ err = .encodingError (recordAddress start ents (k + 1)))

/-- 44_sprite R184 and 30_encoding R86: a USF image parses to its entries, whatever follows it. It fails at the first entry
that has a zero dimension or is cut short; an image without its count byte fails at 0. -/
def Obligations.UsfParsingFindsTheEntriesOrTheFirstBadOne : Prop :=
  parseUsf [] = .error (.outOfBounds 0)
    ∧ ∀ (n : Byte) (ents : List Entry) (image rest : List Byte),
      (∀ e ∈ ents, e.w ≠ 0 ∧ e.h ≠ 0 ∧ e.pixels.length = 64 * e.w.toNat * e.h.toNat
        ∧ e.attrs.length = e.w.toNat * e.h.toNat) →
      image = ents.flatMap (fun e => [e.w, e.h] ++ e.pixels ++ e.attrs) →
      (ents.length = n.toNat → parseUsf (n :: image ++ rest) = .ok ents)
      ∧ (ents.length < n.toNat → rest.length < 2 →
        parseUsf (n :: image ++ rest)
          = .error (.outOfBounds (1 + image.length)))
      ∧ (∀ w h tail, ents.length < n.toNat → rest = w :: h :: tail → w = 0 ∨ h = 0 →
        parseUsf (n :: image ++ rest)
          = .error (.invalidRecord (1 + image.length)))
      ∧ (∀ w h tail, ents.length < n.toNat → rest = w :: h :: tail → w ≠ 0 → h ≠ 0 →
        rest.length < 2 + 65 * w.toNat * h.toNat →
        parseUsf (n :: image ++ rest)
          = .error (.outOfBounds (1 + image.length)))

/-- 44_sprite R185, R187: after complete packed records, with any ids but 0 and any next addresses, the packed scan stops for
the first of the listed reasons, at the offset where they end. -/
def Obligations.PackedScanStopsForTheFirstReason : Prop :=
  ∀ (recs : List (Nat × Nat × Entry)) (ents : List Entry) (packed tail : List Byte),
    (∀ r ∈ recs, r.1 % 256 ≠ 0 ∧ r.2.2.Valid) → recs.length ≤ 255 → ents = recs.map (fun r => r.2.2) →
    packed = recs.flatMap (fun r => packRecord r.1 r.2.1 r.2.2) →
    (tail = [] → scanPacked (packed ++ tail) = ⟨ents, packed.length, .exhausted⟩)
      ∧ (tail.head? = some 0 → scanPacked (packed ++ tail) = ⟨ents, packed.length, .sentinel⟩)
      ∧ (∀ x, tail.head? = some x → x ≠ 0 → tail.length < 5 →
        scanPacked (packed ++ tail) = ⟨ents, packed.length, .short⟩)
      ∧ ∀ x n0 n1 w h more, tail = x :: n0 :: n1 :: w :: h :: more → x ≠ 0 →
        (w = 0 ∨ h = 0 → scanPacked (packed ++ tail) = ⟨ents, packed.length, .zeroDim⟩)
          ∧ (w ≠ 0 → h ≠ 0 → tail.length < 5 + 9 * w.toNat * h.toNat →
            scanPacked (packed ++ tail) = ⟨ents, packed.length, .overrun⟩)
          ∧ (w ≠ 0 → h ≠ 0 → 5 + 9 * w.toNat * h.toNat ≤ tail.length → ents.length = 255 →
            scanPacked (packed ++ tail) = ⟨ents, packed.length, .limit⟩)

/-- 44_sprite R189 laws 1 and 3, the source's round-trip identity: unpacking the packing of a USF image of 0/1 pixels gives
the image back, with reason END at the end of the records. -/
def Obligations.UnpackingInvertsPacking : Prop :=
  ∀ (n : Byte) (ents : List Entry) (image rest packed : List Byte) (start : Nat), (∀ e ∈ ents, e.Valid) →
    ents.length = n.toNat → image = n :: ents.flatMap (fun e => [e.w, e.h] ++ e.pixels ++ e.attrs) →
    chain ents start = .ok packed →
    parseUsf (image ++ rest) = .ok ents
      ∧ (scanPacked packed).reason = .exhausted ∧ (scanPacked packed).stop = packed.length
      ∧ usfImage (scanPacked packed).ents = image

/-- 44_sprite R187, in terms of ScanPacked, with the numbers of its stop reasons and the USF image (30_encoding R86) written
out. -/
def Obligations.SprUnpackWritesTheUsfImage : Prop :=
  encode .sprUnpack = 0x00000040 ∧
  ∀ (s : State) (scan : Scan) (out : List Byte) (reason : Word), s.disturbed = false →
    scan = scanPacked (s.inBytes 0 s.inLen.toNat) →
    out = BitVec.ofNat 8 scan.ents.length :: scan.ents.flatMap (fun e => [e.w, e.h] ++ e.pixels ++ e.attrs) →
    reason = (match scan.reason with
      | .exhausted => 0
      | .sentinel => 1
      | .short => 2
      | .zeroDim => 3
      | .overrun => 4
      | .limit => 5) →
    InOutChecked .sprUnpack s
      ∧ (s.InOutReady → s.outLen.toNat < out.length → exec .sprUnpack s = .next (s.aborted 9 out.length))
      ∧ (s.InOutReady → out.length ≤ s.outLen.toNat →
        ∃ m, exec .sprUnpack s =
            .next { s.completed with
              mem := m
              res0 := word scan.ents.length
              res1 := word scan.stop
              res2 := reason
              res3 := word out.length }
          ∧ s.WroteOut m out)

/-- 44_sprite R188, in terms of ParseUSF and Chain. -/
def Obligations.SprPackWritesTheChainedRecords : Prop :=
  encode .sprPack = 0x00000041 ∧ ∀ s : State, s.disturbed = false →
    InOutChecked .sprPack s
      ∧ (∀ e, s.InOutReady → parseUsf (s.inBytes 0 s.inLen.toNat) = .error e →
        ∃ o, (e = .outOfBounds o ∧ exec .sprPack s = .next (s.aborted 1 o))
          ∨ (e = .invalidRecord o ∧ exec .sprPack s = .next (s.aborted 10 o)))
      ∧ ∀ ents, s.InOutReady → parseUsf (s.inBytes 0 s.inLen.toNat) = .ok ents →
        (0xFFFF < s.arg0.toNat → exec .sprPack s = .next (s.aborted 3 s.arg0.toNat))
          ∧ (∀ e, s.arg0.toNat ≤ 0xFFFF → chain ents s.arg0.toNat = .error e →
            ∃ nxt, e = .encodingError nxt ∧ exec .sprPack s = .next (s.aborted 3 nxt))
          ∧ (∀ out, s.arg0.toNat ≤ 0xFFFF → chain ents s.arg0.toNat = .ok out → s.outLen.toNat < out.length →
            exec .sprPack s = .next (s.aborted 9 out.length))
          ∧ (∀ out, s.arg0.toNat ≤ 0xFFFF → chain ents s.arg0.toNat = .ok out → out.length ≤ s.outLen.toNat →
            ∃ m, exec .sprPack s =
                .next { s.completed with mem := m, res0 := word out.length, res1 := word ents.length, res2 := s.arg0 }
              ∧ s.WroteOut m out)

/-- 44_sprite R190: the fields of ARG0[7:0] (00_scope R15), its higher bits ignored. -/
def Obligations.AttrUnpackSplitsTheByte : Prop :=
  encode .attrUnpack = 0x00000042 ∧ ∀ s : State, s.disturbed = false →
    exec .attrUnpack s =
      .next { s.completed with
        res0 := s.arg0 &&& 7
        res1 := (s.arg0 >>> 3) &&& 7
        res2 := (s.arg0 >>> 6) &&& 1
        res3 := (s.arg0 >>> 7) &&& 1 }

/-- 44_sprite R191, with its law: ATTR_PACK of what ATTR_UNPACK(a) gives is a. -/
def Obligations.AttrPackJoinsTheFields : Prop :=
  encode .attrPack = 0x00000043 ∧
    (∀ s : State, s.disturbed = false →
      exec .attrPack s =
        .next { s.completed with
          res0 := (s.arg0 &&& 7) ||| ((s.arg1 &&& 7) <<< 3) ||| ((s.arg2 &&& 1) <<< 6) ||| ((s.arg3 &&& 1) <<< 7) })
    ∧ ∀ s t u : State, s.disturbed = false → exec .attrUnpack s = .next t →
      exec .attrPack { t with arg0 := t.res0, arg1 := t.res1, arg2 := t.res2, arg3 := t.res3 } = .next u →
      u.res0 = s.arg0 &&& 0xFF

/-! ## The allocator commands -/

/-- 45_allocator R212 with Layout (R211): total = Σ (5 + 9·w·h), start = 56575 - total, and CapacityExceeded exactly when the
total is above 56575. -/
def Obligations.LayoutComputesTotalAndStart : Prop :=
  encode .layout = 0x00000050 ∧ ∀ s : State, s.disturbed = false →
    (¬ s.Fits .inp → exec .layout s = .next (s.aborted 7 1))
      ∧ (∀ e, s.Fits .inp → parseUsf (s.inBytes 0 s.inLen.toNat) = .error e →
        ∃ o, (e = .outOfBounds o ∧ exec .layout s = .next (s.aborted 1 o))
          ∨ (e = .invalidRecord o ∧ exec .layout s = .next (s.aborted 10 o)))
      ∧ ∀ ents total, s.Fits .inp → parseUsf (s.inBytes 0 s.inLen.toNat) = .ok ents →
        total = (ents.map (fun e => 5 + 9 * e.w.toNat * e.h.toNat)).sum →
        (56575 < total → exec .layout s = .next (s.aborted 4 total))
          ∧ (total ≤ 56575 → exec .layout s =
            .next { s.completed with
              res0 := word total
              res1 := word (56575 - total)
              res2 := word ents.length })

/-- 45_allocator R215: after a successful layout the chain never fails, its bytes fit the length field, and EXPORT never
raises EncodingError. -/
def Obligations.ExportNeverRaisesEncodingError : Prop :=
  (∀ (ents : List Entry) (total start : Nat), computeLayout ents = .ok (total, start) →
    ∃ data, chain ents start = .ok data ∧ data.length = total ∧ total ≤ 65534)
    ∧ ∀ s t : State, exec .exportTape s = .next t → s.errcode ≠ 3 → t.errcode ≠ 3

/-- 45_allocator R213, in terms of ParseUSF and Chain, with Frame and HeaderPayload written out. -/
def Obligations.ExportWritesTheTapeImage : Prop :=
  encode .exportTape = 0x00000060 ∧ ∀ s : State, s.disturbed = false →
    InAuxOutChecked .exportTape s
      ∧ (∀ e, s.InAuxOutReady → parseUsf (s.inBytes 0 s.inLen.toNat) = .error e →
        ∃ o, (e = .outOfBounds o ∧ exec .exportTape s = .next (s.aborted 1 o))
          ∨ (e = .invalidRecord o ∧ exec .exportTape s = .next (s.aborted 10 o)))
      ∧ ∀ ents total, s.InAuxOutReady → parseUsf (s.inBytes 0 s.inLen.toNat) = .ok ents →
        total = (ents.map (fun e => 5 + 9 * e.w.toNat * e.h.toNat)).sum →
        (56575 < total → exec .exportTape s = .next (s.aborted 4 total))
          ∧ (total ≤ 56575 → s.outLen.toNat < total + 25 → exec .exportTape s = .next (s.aborted 9 (total + 25)))
          ∧ (total ≤ 56575 → total + 25 ≤ s.outLen.toNat →
            ∃ m data header, exec .exportTape s =
                .next { s.completed with
                  mem := m
                  res0 := word (total + 25)
                  res1 := word (56575 - total)
                  res2 := word total
                  res3 := word ents.length }
              ∧ chain ents (56575 - total) = .ok data
              ∧ header = [3] ++ s.auxBytes 0 (min s.auxLen.toNat 10) ++ List.replicate (10 - s.auxLen.toNat) 0x20
                ++ [BitVec.ofNat 8 (total % 256), BitVec.ofNat 8 (total / 256),
                  BitVec.ofNat 8 ((56575 - total) % 256), BitVec.ofNat 8 ((56575 - total) / 256), 0x00, 0x80]
              ∧ s.WroteOut m
                ([18, 0, 0] ++ header ++ [header.foldl (fun x b => x ^^^ b) 0]
                  ++ [BitVec.ofNat 8 ((total + 1) % 256), BitVec.ofNat 8 ((total + 1) / 256), 255] ++ data
                  ++ [data.foldl (fun x b => x ^^^ b) 255]))

/-! ## The host's side -/

/-- 60_exceptions R233: a CMD write while BUSY = 0 is accepted: CMD and PENDING take the word, BUSY is 1, DONE, ERR, ERRCODE
and ERRINFO are cleared, and no other state changes; one while BUSY = 1 is ignored (the host moves on in both cases). -/
def Obligations.CommandWritesAreAcceptedOnlyWhileIdle : Prop :=
  ∀ (s : State) (rest : List Turn) (w : Word), s.turns = .host :: rest →
    s.host.prog[s.host.pc]? = some (.regWrite 0x04 4 w) →
    (s.pending = none → ∃ t, step s = .next t ∧ t.busy = true
      ∧ t = { s with
        turns := rest
        host := { s.host with pc := s.host.pc + 1 }
        cmd := w
        pending := some w
        done := false
        err := false
        errcode := 0
        errinfo := 0 })
    ∧ ∀ v, s.pending = some v →
      step s = .next { s with turns := rest, host := { s.host with pc := s.host.pc + 1 } }

/-- 70_reset R265, R266: every register write while BUSY = 1 is ignored, CMD included (the host moves on). -/
def Obligations.RegisterWritesWhileBusyAreIgnored : Prop :=
  ∀ (s : State) (rest : List Turn) (w : Word) (offset size : Nat) (v : Word), s.turns = .host :: rest →
    s.pending = some w → s.host.prog[s.host.pc]? = some (.regWrite offset size v) →
    step s = .next { s with turns := rest, host := { s.host with pc := s.host.pc + 1 } }

/-- 10_state R22, R27, R29, R32: a write to a RW register while BUSY = 0 stores the value and changes nothing else. -/
def Obligations.WritableRegistersHoldWhatIsWritten : Prop :=
  ∀ (s : State) (v : Word), s.busy = false →
    s.hostRegWrite 0x14 4 v = { s with inBase := v } ∧ s.hostRegWrite 0x18 4 v = { s with inLen := v }
      ∧ s.hostRegWrite 0x1C 4 v = { s with auxBase := v } ∧ s.hostRegWrite 0x20 4 v = { s with auxLen := v }
      ∧ s.hostRegWrite 0x24 4 v = { s with outBase := v } ∧ s.hostRegWrite 0x28 4 v = { s with outLen := v }
      ∧ s.hostRegWrite 0x30 4 v = { s with arg0 := v } ∧ s.hostRegWrite 0x34 4 v = { s with arg1 := v }
      ∧ s.hostRegWrite 0x38 4 v = { s with arg2 := v } ∧ s.hostRegWrite 0x3C 4 v = { s with arg3 := v }

/-- 10_state R31, R32, R23, R30 and 20_memory R54: a write to a read-only register or a reserved offset, or one that is not an
aligned 32-bit access, is ignored; a read of a reserved offset, or one that is not an aligned 32-bit access, returns 0. That
offsets from 0x100 on are no register access is the model's reading (log 11, DEDUCED). -/
def Obligations.OtherRegisterAccessesDoNothing : Prop :=
  ∀ (s : State) (offset size : Nat) (v : Word),
    (size ≠ 4 ∨ offset % 4 ≠ 0 ∨ 0x58 ≤ offset →
      s.hostRegWrite offset size v = s ∧ s.hostRegValue offset size = 0)
      ∧ (offset ∈ [0x00, 0x08, 0x0C, 0x10, 0x2C, 0x40, 0x44, 0x48, 0x4C, 0x50, 0x54] → s.hostRegWrite offset 4 v = s)

/-- 10_state R22 to R30 and 70_reset R268: what each register reads at its offset, at any time, and RES0 to RES5 while
BUSY = 0. -/
def Obligations.RegisterReadsShowTheRegisters : Prop :=
  ∀ s : State,
    s.hostRegValue 0x00 4 = 0x54415007 ∧ s.hostRegValue 0x04 4 = s.cmd ∧ s.hostRegValue 0x08 4 = s.statusWord
      ∧ s.hostRegValue 0x0C 4 = s.errcode.setWidth 32 ∧ s.hostRegValue 0x10 4 = s.errinfo
      ∧ s.hostRegValue 0x14 4 = s.inBase ∧ s.hostRegValue 0x18 4 = s.inLen
      ∧ s.hostRegValue 0x1C 4 = s.auxBase ∧ s.hostRegValue 0x20 4 = s.auxLen
      ∧ s.hostRegValue 0x24 4 = s.outBase ∧ s.hostRegValue 0x28 4 = s.outLen ∧ s.hostRegValue 0x2C 4 = s.cur
      ∧ s.hostRegValue 0x30 4 = s.arg0 ∧ s.hostRegValue 0x34 4 = s.arg1
      ∧ s.hostRegValue 0x38 4 = s.arg2 ∧ s.hostRegValue 0x3C 4 = s.arg3
      ∧ (s.pending = none →
        s.hostRegValue 0x40 4 = s.res0 ∧ s.hostRegValue 0x44 4 = s.res1 ∧ s.hostRegValue 0x48 4 = s.res2
          ∧ s.hostRegValue 0x4C 4 = s.res3 ∧ s.hostRegValue 0x50 4 = s.res4 ∧ s.hostRegValue 0x54 4 = s.res5)

/-- 10_state R32, 20_memory R57 and 30_encoding R90: a host read of a register or of MEM, and the register read of a branch,
change nothing of the framer, at any time. The host takes note of the value and moves on (logs 9 and 14), and the free values
move on (log 4): these are the model's own. -/
def Obligations.HostReadsChangeNothingOfTheFramer : Prop :=
  ∀ (s : State) (rest : List Turn), s.turns = .host :: rest →
    (∀ offset size, s.host.prog[s.host.pc]? = some (.regRead offset size) →
      step s = .next { s with
        turns := rest
        tick := s.tick + 1
        host := { s.host with pc := s.host.pc + 1, readings := s.hostRegValue offset size :: s.host.readings } })
      ∧ (∀ a, s.host.prog[s.host.pc]? = some (.memRead a) →
        step s = .next { s with
          turns := rest
          tick := s.tick + 1
          host := { s.host with pc := s.host.pc + 1, readings := (s.hostMemValue a).setWidth 32 :: s.host.readings } })
      ∧ ∀ onZero offset mask target, s.host.prog[s.host.pc]? = some (.branch onZero offset mask target) →
        step s = .next { s with
          turns := rest
          tick := s.tick + 1
          host := { s.host with
            pc := if onZero = decide (s.hostRegValue offset 4 &&& mask = 0) then target else s.host.pc + 1
            readings := s.hostRegValue offset 4 :: s.host.readings } }

/-- 00_scope R16: a host step is one register write or one MEM byte write, as the statements about those say, and a host at
the end of its program does nothing (log 18). The schedule and the host's position are the model's own (logs 8 and 9). -/
def Obligations.HostWriteStepsPerformTheWrite : Prop :=
  ∀ (s : State) (rest : List Turn), s.turns = .host :: rest →
    (∀ offset size v, s.host.prog[s.host.pc]? = some (.regWrite offset size v) →
      step s = .next { s.hostRegWrite offset size v with
        turns := rest
        host := { s.host with pc := s.host.pc + 1 } })
      ∧ (∀ a b, s.host.prog[s.host.pc]? = some (.memWrite a b) →
        step s = .next { s.hostMemWrite a b with
          turns := rest
          host := { s.host with pc := s.host.pc + 1 } })
      ∧ (s.host.prog[s.host.pc]? = none → step s = .next { s with turns := rest })

/-- 10_state R25: STATUS is BUSY, DONE, ERR and the live AT_END in bits 0 to 3, and bits 31:4 read 0. -/
def Obligations.StatusBits : Prop :=
  ∀ s : State, s.statusWord.getLsbD 0 = s.pending.isSome ∧ s.statusWord.getLsbD 1 = s.done
    ∧ s.statusWord.getLsbD 2 = s.err ∧ s.statusWord.getLsbD 3 = decide (s.inLen.toNat ≤ s.cur.toNat)
    ∧ ∀ k, 4 ≤ k → s.statusWord.getLsbD k = false

/-- 10_state R38, 70_reset R261 to R263: reset puts every register at the value of the table, empties PENDING and leaves no
byte of MEM known, also while a command is in flight; and so is the machine right after reset. -/
def Obligations.ResetSetsEveryRegister : Prop :=
  (∀ (s : State) (rest : List Turn), s.turns = .reset :: rest →
    ∃ t, step s = .next t ∧ t.ReadsResetValues ∧ t.pending = none ∧ (∀ a, t.mem.read? a = none) ∧ t.memSize = s.memSize)
    ∧ State.reset.ReadsResetValues ∧ State.reset.pending = none ∧ ∀ a, State.reset.mem.read? a = none

/-- 20_memory R55, R61 and 70_reset R267: while no command runs, and outside the regions of a running one, a host MEM write
stores its byte and no other, and a host read returns the byte last written, by the host or by a command; an access at or above
MEM_SIZE is ignored or returns 0, at any time. While a command runs, R267 leaves an access to its regions unspecified: that a
write into one is stored too is the model's choice (log 7, a DESIGN CHOICE), and that a read in its IN or AUX region returns
the byte last written is the model's reading (log 6, DEDUCED). -/
def Obligations.HostMemAccesses : Prop :=
  ∀ (s : State) (a : Nat) (b : Byte),
    (a < s.memSize →
      (∀ x, (s.hostMemWrite a b).mem.read? x = if x = a then some b else s.mem.read? x)
        ∧ s.hostMemWrite a b = { s with mem := (s.hostMemWrite a b).mem, disturbed := (s.hostMemWrite a b).disturbed }
        ∧ (s.pending = none → (s.hostMemWrite a b).disturbed = s.disturbed))
      ∧ (a < s.memSize → s.OutsideRunningOut a →
        (s.hostMemWrite a b).hostMemValue a = b ∧ (s.mem.read? a = some b → s.hostMemValue a = b))
      ∧ (s.memSize ≤ a → s.hostMemWrite a b = s ∧ s.hostMemValue a = 0)
      ∧ ∀ (i : Instr) (t : State) (out : List Byte) (k : Nat), exec i s = .next t → s.WroteOut t.mem out →
        out[k]? = some b → s.outBase.toNat + k < s.memSize → t.hostMemValue (s.outBase.toNat + k) = b

/-- 70_reset R267 and the model's choice of log 7: a host MEM write while a command runs is stored, and it disturbs the
command exactly when it hits a region the command uses; outside those regions it behaves normally. -/
def Obligations.HostWritesDisturbTheRunningCommand : Prop :=
  ∀ (s : State) (w : Word) (i : Instr) (a : Nat) (b : Byte), s.pending = some w → decode w = .ok i → a < s.memSize →
    s.disturbed = false →
    ((s.hostMemWrite a b).disturbed = true ↔ ∃ r, i.uses r = true ∧ s.base r ≤ a ∧ a < s.base r + s.len r)
      ∧ ∀ x, (s.hostMemWrite a b).mem.read? x = if x = a then some b else s.mem.read? x

/-- 70_reset R267 and the model's choice of log 7: a result register that a disturbed command writes, and every byte it puts
in MEM, is a free value. -/
def Obligations.DisturbedCommandsWriteFreeValues : Prop :=
  ∀ (i : Instr) (s t : State), s.disturbed = true → exec i s = .next t →
    t.disturbed = false
      ∧ (t.res0 = s.res0 ∨ t.res0 = Config.disturbedResult s.tick 0)
      ∧ (t.res1 = s.res1 ∨ t.res1 = Config.disturbedResult s.tick 1)
      ∧ (t.res2 = s.res2 ∨ t.res2 = Config.disturbedResult s.tick 2)
      ∧ (t.res3 = s.res3 ∨ t.res3 = Config.disturbedResult s.tick 3)
      ∧ (t.res4 = s.res4 ∨ t.res4 = Config.disturbedResult s.tick 4)
      ∧ (t.res5 = s.res5 ∨ t.res5 = Config.disturbedResult s.tick 5)
      ∧ ∀ k, t.mem.read? (s.outBase.toNat + k) = s.mem.read? (s.outBase.toNat + k)
        ∨ t.mem.read? (s.outBase.toNat + k) = some (Config.disturbedOutput s.tick k)

/-- 60_exceptions R239, R248 and 93 U10: while no command is accepted and no reset comes, a step keeps STATUS.DONE and ERR,
ERRCODE, ERRINFO, CUR and the results. -/
def Obligations.TheOutcomeStaysUntilTheNextCommand : Prop :=
  ∀ s t : State, s.pending = none → s.turns.head? ≠ some .reset → step s = .next t → t.pending = none →
    t.done = s.done ∧ t.err = s.err ∧ t.errcode = s.errcode ∧ t.errinfo = s.errinfo ∧ t.cur = s.cur
      ∧ t.res0 = s.res0 ∧ t.res1 = s.res1 ∧ t.res2 = s.res2 ∧ t.res3 = s.res3 ∧ t.res4 = s.res4 ∧ t.res5 = s.res5

/-- 60_exceptions R239: "The same command on the same state gives the same error again", where the host has written every
byte of the command's input regions. -/
def Obligations.TheSameCommandGivesTheSameErrorAgain : Prop :=
  ∀ (i : Instr) (s t : State) (w : Word), s.disturbed = false → s.err = false →
    (∀ r a, i.uses r = true → r ≠ .out → s.base r ≤ a → a < s.base r + s.len r → (s.mem.read? a).isSome = true) →
    exec i s = .next t → t.err = true →
    ∃ t', exec i (t.accept w) = .next t' ∧ t'.err = true ∧ t'.errcode = t.errcode ∧ t'.errinfo = t.errinfo

/-- 30_encoding R91: every pseudo-statement assembles as its expansion. -/
def Obligations.PseudoStatementsExpand : Prop :=
  ∀ (before after : List Stmt) (c : CommandText) (b l : Nat),
    assemble (before ++ [.run c] ++ after) = assemble (before ++ [.command c, .poll] ++ after)
      ∧ assemble (before ++ [.region .inp b l] ++ after)
        = assemble (before ++ [.wr .inBase b, .wr .inLen l] ++ after)
      ∧ assemble (before ++ [.region .aux b l] ++ after)
        = assemble (before ++ [.wr .auxBase b, .wr .auxLen l] ++ after)
      ∧ assemble (before ++ [.region .out b l] ++ after)
        = assemble (before ++ [.wr .outBase b, .wr .outLen l] ++ after)
      ∧ assemble (before ++ [.command .blkEncodeHdr] ++ after)
        = assemble (before ++ [.command (.blkEncodeImm 0x00)] ++ after)
      ∧ assemble (before ++ [.command .blkEncodeData] ++ after)
        = assemble (before ++ [.command (.blkEncodeImm 0xFF)] ++ after)
      ∧ assemble (before ++ [.command .xorCsumBare] ++ after)
        = assemble (before ++ [.command (.xorCsumImm 0)] ++ after)
end

