-- ==== Sys2Proof/Laws/State.lean ====
section
/-! SUPPORT. One lemma per field per update of State, each true by rfl, so that no later proof unfolds a record update. -/

namespace Sys2Proof.Machine

/-! ## Success -/

@[simp] theorem State.apply_memSize (s : State) (f : Effect) : (s.apply f).memSize = s.memSize := rfl
@[simp] theorem State.apply_cmd (s : State) (f : Effect) : (s.apply f).cmd = s.cmd := rfl
@[simp] theorem State.apply_done (s : State) (f : Effect) : (s.apply f).done = true := rfl
@[simp] theorem State.apply_err (s : State) (f : Effect) : (s.apply f).err = s.err := rfl
@[simp] theorem State.apply_errcode (s : State) (f : Effect) : (s.apply f).errcode = s.errcode := rfl
@[simp] theorem State.apply_errinfo (s : State) (f : Effect) : (s.apply f).errinfo = s.errinfo := rfl
@[simp] theorem State.apply_inBase (s : State) (f : Effect) : (s.apply f).inBase = s.inBase := rfl
@[simp] theorem State.apply_inLen (s : State) (f : Effect) : (s.apply f).inLen = s.inLen := rfl
@[simp] theorem State.apply_auxBase (s : State) (f : Effect) : (s.apply f).auxBase = s.auxBase := rfl
@[simp] theorem State.apply_auxLen (s : State) (f : Effect) : (s.apply f).auxLen = s.auxLen := rfl
@[simp] theorem State.apply_outBase (s : State) (f : Effect) : (s.apply f).outBase = s.outBase := rfl
@[simp] theorem State.apply_outLen (s : State) (f : Effect) : (s.apply f).outLen = s.outLen := rfl
@[simp] theorem State.apply_cur (s : State) (f : Effect) : (s.apply f).cur = f.cur.getD s.cur := rfl
@[simp] theorem State.apply_arg0 (s : State) (f : Effect) : (s.apply f).arg0 = s.arg0 := rfl
@[simp] theorem State.apply_arg1 (s : State) (f : Effect) : (s.apply f).arg1 = s.arg1 := rfl
@[simp] theorem State.apply_arg2 (s : State) (f : Effect) : (s.apply f).arg2 = s.arg2 := rfl
@[simp] theorem State.apply_arg3 (s : State) (f : Effect) : (s.apply f).arg3 = s.arg3 := rfl
@[simp] theorem State.apply_res0 (s : State) (f : Effect) : (s.apply f).res0 = f.res0.getD s.res0 := rfl
@[simp] theorem State.apply_res1 (s : State) (f : Effect) : (s.apply f).res1 = f.res1.getD s.res1 := rfl
@[simp] theorem State.apply_res2 (s : State) (f : Effect) : (s.apply f).res2 = f.res2.getD s.res2 := rfl
@[simp] theorem State.apply_res3 (s : State) (f : Effect) : (s.apply f).res3 = f.res3.getD s.res3 := rfl
@[simp] theorem State.apply_res4 (s : State) (f : Effect) : (s.apply f).res4 = f.res4.getD s.res4 := rfl
@[simp] theorem State.apply_res5 (s : State) (f : Effect) : (s.apply f).res5 = f.res5.getD s.res5 := rfl
@[simp] theorem State.apply_pending (s : State) (f : Effect) : (s.apply f).pending = none := rfl
@[simp] theorem State.apply_mem (s : State) (f : Effect) : (s.apply f).mem = s.committed f.out := rfl
@[simp] theorem State.apply_disturbed (s : State) (f : Effect) : (s.apply f).disturbed = false := rfl
@[simp] theorem State.apply_tick (s : State) (f : Effect) : (s.apply f).tick = s.tick + 1 := rfl
@[simp] theorem State.apply_turns (s : State) (f : Effect) : (s.apply f).turns = s.turns := rfl
@[simp] theorem State.apply_host (s : State) (f : Effect) : (s.apply f).host = s.host := rfl

/-! ## Abort -/

@[simp] theorem State.abort_memSize (s : State) (e : CmdError) : (s.abort e).memSize = s.memSize := rfl
@[simp] theorem State.abort_cmd (s : State) (e : CmdError) : (s.abort e).cmd = s.cmd := rfl
@[simp] theorem State.abort_done (s : State) (e : CmdError) : (s.abort e).done = s.done := rfl
@[simp] theorem State.abort_err (s : State) (e : CmdError) : (s.abort e).err = true := rfl
@[simp] theorem State.abort_errcode (s : State) (e : CmdError) : (s.abort e).errcode = e.code := rfl
@[simp] theorem State.abort_errinfo (s : State) (e : CmdError) : (s.abort e).errinfo = saturate e.info := rfl
@[simp] theorem State.abort_inBase (s : State) (e : CmdError) : (s.abort e).inBase = s.inBase := rfl
@[simp] theorem State.abort_inLen (s : State) (e : CmdError) : (s.abort e).inLen = s.inLen := rfl
@[simp] theorem State.abort_auxBase (s : State) (e : CmdError) : (s.abort e).auxBase = s.auxBase := rfl
@[simp] theorem State.abort_auxLen (s : State) (e : CmdError) : (s.abort e).auxLen = s.auxLen := rfl
@[simp] theorem State.abort_outBase (s : State) (e : CmdError) : (s.abort e).outBase = s.outBase := rfl
@[simp] theorem State.abort_outLen (s : State) (e : CmdError) : (s.abort e).outLen = s.outLen := rfl
@[simp] theorem State.abort_cur (s : State) (e : CmdError) : (s.abort e).cur = s.cur := rfl
@[simp] theorem State.abort_arg0 (s : State) (e : CmdError) : (s.abort e).arg0 = s.arg0 := rfl
@[simp] theorem State.abort_arg1 (s : State) (e : CmdError) : (s.abort e).arg1 = s.arg1 := rfl
@[simp] theorem State.abort_arg2 (s : State) (e : CmdError) : (s.abort e).arg2 = s.arg2 := rfl
@[simp] theorem State.abort_arg3 (s : State) (e : CmdError) : (s.abort e).arg3 = s.arg3 := rfl
@[simp] theorem State.abort_res0 (s : State) (e : CmdError) : (s.abort e).res0 = s.res0 := rfl
@[simp] theorem State.abort_res1 (s : State) (e : CmdError) : (s.abort e).res1 = s.res1 := rfl
@[simp] theorem State.abort_res2 (s : State) (e : CmdError) : (s.abort e).res2 = s.res2 := rfl
@[simp] theorem State.abort_res3 (s : State) (e : CmdError) : (s.abort e).res3 = s.res3 := rfl
@[simp] theorem State.abort_res4 (s : State) (e : CmdError) : (s.abort e).res4 = s.res4 := rfl
@[simp] theorem State.abort_res5 (s : State) (e : CmdError) : (s.abort e).res5 = s.res5 := rfl
@[simp] theorem State.abort_pending (s : State) (e : CmdError) : (s.abort e).pending = none := rfl
@[simp] theorem State.abort_mem (s : State) (e : CmdError) : (s.abort e).mem = s.mem := rfl
@[simp] theorem State.abort_disturbed (s : State) (e : CmdError) : (s.abort e).disturbed = false := rfl
@[simp] theorem State.abort_tick (s : State) (e : CmdError) : (s.abort e).tick = s.tick + 1 := rfl
@[simp] theorem State.abort_turns (s : State) (e : CmdError) : (s.abort e).turns = s.turns := rfl
@[simp] theorem State.abort_host (s : State) (e : CmdError) : (s.abort e).host = s.host := rfl

/-! ## Command issue -/

@[simp] theorem State.accept_memSize (s : State) (w : Word) : (s.accept w).memSize = s.memSize := rfl
@[simp] theorem State.accept_cmd (s : State) (w : Word) : (s.accept w).cmd = w := rfl
@[simp] theorem State.accept_done (s : State) (w : Word) : (s.accept w).done = false := rfl
@[simp] theorem State.accept_err (s : State) (w : Word) : (s.accept w).err = false := rfl
@[simp] theorem State.accept_errcode (s : State) (w : Word) : (s.accept w).errcode = 0 := rfl
@[simp] theorem State.accept_errinfo (s : State) (w : Word) : (s.accept w).errinfo = 0 := rfl
@[simp] theorem State.accept_inBase (s : State) (w : Word) : (s.accept w).inBase = s.inBase := rfl
@[simp] theorem State.accept_inLen (s : State) (w : Word) : (s.accept w).inLen = s.inLen := rfl
@[simp] theorem State.accept_auxBase (s : State) (w : Word) : (s.accept w).auxBase = s.auxBase := rfl
@[simp] theorem State.accept_auxLen (s : State) (w : Word) : (s.accept w).auxLen = s.auxLen := rfl
@[simp] theorem State.accept_outBase (s : State) (w : Word) : (s.accept w).outBase = s.outBase := rfl
@[simp] theorem State.accept_outLen (s : State) (w : Word) : (s.accept w).outLen = s.outLen := rfl
@[simp] theorem State.accept_cur (s : State) (w : Word) : (s.accept w).cur = s.cur := rfl
@[simp] theorem State.accept_arg0 (s : State) (w : Word) : (s.accept w).arg0 = s.arg0 := rfl
@[simp] theorem State.accept_arg1 (s : State) (w : Word) : (s.accept w).arg1 = s.arg1 := rfl
@[simp] theorem State.accept_arg2 (s : State) (w : Word) : (s.accept w).arg2 = s.arg2 := rfl
@[simp] theorem State.accept_arg3 (s : State) (w : Word) : (s.accept w).arg3 = s.arg3 := rfl
@[simp] theorem State.accept_res0 (s : State) (w : Word) : (s.accept w).res0 = s.res0 := rfl
@[simp] theorem State.accept_res1 (s : State) (w : Word) : (s.accept w).res1 = s.res1 := rfl
@[simp] theorem State.accept_res2 (s : State) (w : Word) : (s.accept w).res2 = s.res2 := rfl
@[simp] theorem State.accept_res3 (s : State) (w : Word) : (s.accept w).res3 = s.res3 := rfl
@[simp] theorem State.accept_res4 (s : State) (w : Word) : (s.accept w).res4 = s.res4 := rfl
@[simp] theorem State.accept_res5 (s : State) (w : Word) : (s.accept w).res5 = s.res5 := rfl
@[simp] theorem State.accept_pending (s : State) (w : Word) : (s.accept w).pending = some w := rfl
@[simp] theorem State.accept_mem (s : State) (w : Word) : (s.accept w).mem = s.mem := rfl
@[simp] theorem State.accept_disturbed (s : State) (w : Word) : (s.accept w).disturbed = s.disturbed := rfl
@[simp] theorem State.accept_tick (s : State) (w : Word) : (s.accept w).tick = s.tick := rfl
@[simp] theorem State.accept_turns (s : State) (w : Word) : (s.accept w).turns = s.turns := rfl
@[simp] theorem State.accept_host (s : State) (w : Word) : (s.accept w).host = s.host := rfl

/-! ## Platform reset -/

@[simp] theorem State.platformReset_memSize (s : State) : (s.platformReset).memSize = s.memSize := rfl
@[simp] theorem State.platformReset_cmd (s : State) : (s.platformReset).cmd = 0 := rfl
@[simp] theorem State.platformReset_done (s : State) : (s.platformReset).done = false := rfl
@[simp] theorem State.platformReset_err (s : State) : (s.platformReset).err = false := rfl
@[simp] theorem State.platformReset_errcode (s : State) : (s.platformReset).errcode = 0 := rfl
@[simp] theorem State.platformReset_errinfo (s : State) : (s.platformReset).errinfo = 0 := rfl
@[simp] theorem State.platformReset_inBase (s : State) : (s.platformReset).inBase = 0 := rfl
@[simp] theorem State.platformReset_inLen (s : State) : (s.platformReset).inLen = 0 := rfl
@[simp] theorem State.platformReset_auxBase (s : State) : (s.platformReset).auxBase = 0 := rfl
@[simp] theorem State.platformReset_auxLen (s : State) : (s.platformReset).auxLen = 0 := rfl
@[simp] theorem State.platformReset_outBase (s : State) : (s.platformReset).outBase = 0 := rfl
@[simp] theorem State.platformReset_outLen (s : State) : (s.platformReset).outLen = 0 := rfl
@[simp] theorem State.platformReset_cur (s : State) : (s.platformReset).cur = 0 := rfl
@[simp] theorem State.platformReset_arg0 (s : State) : (s.platformReset).arg0 = 0 := rfl
@[simp] theorem State.platformReset_arg1 (s : State) : (s.platformReset).arg1 = 0 := rfl
@[simp] theorem State.platformReset_arg2 (s : State) : (s.platformReset).arg2 = 0 := rfl
@[simp] theorem State.platformReset_arg3 (s : State) : (s.platformReset).arg3 = 0 := rfl
@[simp] theorem State.platformReset_res0 (s : State) : (s.platformReset).res0 = 0 := rfl
@[simp] theorem State.platformReset_res1 (s : State) : (s.platformReset).res1 = 0 := rfl
@[simp] theorem State.platformReset_res2 (s : State) : (s.platformReset).res2 = 0 := rfl
@[simp] theorem State.platformReset_res3 (s : State) : (s.platformReset).res3 = 0 := rfl
@[simp] theorem State.platformReset_res4 (s : State) : (s.platformReset).res4 = 0 := rfl
@[simp] theorem State.platformReset_res5 (s : State) : (s.platformReset).res5 = 0 := rfl
@[simp] theorem State.platformReset_pending (s : State) : (s.platformReset).pending = none := rfl
@[simp] theorem State.platformReset_mem (s : State) : (s.platformReset).mem = [] := rfl
@[simp] theorem State.platformReset_disturbed (s : State) : (s.platformReset).disturbed = false := rfl
@[simp] theorem State.platformReset_tick (s : State) : (s.platformReset).tick = s.tick := rfl
@[simp] theorem State.platformReset_turns (s : State) : (s.platformReset).turns = s.turns := rfl
@[simp] theorem State.platformReset_host (s : State) : (s.platformReset).host = s.host := rfl

/-! ## The host moves on -/

@[simp] theorem State.hostGoto_memSize (s : State) (pc : Nat) : (s.hostGoto pc).memSize = s.memSize := rfl
@[simp] theorem State.hostGoto_cmd (s : State) (pc : Nat) : (s.hostGoto pc).cmd = s.cmd := rfl
@[simp] theorem State.hostGoto_done (s : State) (pc : Nat) : (s.hostGoto pc).done = s.done := rfl
@[simp] theorem State.hostGoto_err (s : State) (pc : Nat) : (s.hostGoto pc).err = s.err := rfl
@[simp] theorem State.hostGoto_errcode (s : State) (pc : Nat) : (s.hostGoto pc).errcode = s.errcode := rfl
@[simp] theorem State.hostGoto_errinfo (s : State) (pc : Nat) : (s.hostGoto pc).errinfo = s.errinfo := rfl
@[simp] theorem State.hostGoto_inBase (s : State) (pc : Nat) : (s.hostGoto pc).inBase = s.inBase := rfl
@[simp] theorem State.hostGoto_inLen (s : State) (pc : Nat) : (s.hostGoto pc).inLen = s.inLen := rfl
@[simp] theorem State.hostGoto_auxBase (s : State) (pc : Nat) : (s.hostGoto pc).auxBase = s.auxBase := rfl
@[simp] theorem State.hostGoto_auxLen (s : State) (pc : Nat) : (s.hostGoto pc).auxLen = s.auxLen := rfl
@[simp] theorem State.hostGoto_outBase (s : State) (pc : Nat) : (s.hostGoto pc).outBase = s.outBase := rfl
@[simp] theorem State.hostGoto_outLen (s : State) (pc : Nat) : (s.hostGoto pc).outLen = s.outLen := rfl
@[simp] theorem State.hostGoto_cur (s : State) (pc : Nat) : (s.hostGoto pc).cur = s.cur := rfl
@[simp] theorem State.hostGoto_arg0 (s : State) (pc : Nat) : (s.hostGoto pc).arg0 = s.arg0 := rfl
@[simp] theorem State.hostGoto_arg1 (s : State) (pc : Nat) : (s.hostGoto pc).arg1 = s.arg1 := rfl
@[simp] theorem State.hostGoto_arg2 (s : State) (pc : Nat) : (s.hostGoto pc).arg2 = s.arg2 := rfl
@[simp] theorem State.hostGoto_arg3 (s : State) (pc : Nat) : (s.hostGoto pc).arg3 = s.arg3 := rfl
@[simp] theorem State.hostGoto_res0 (s : State) (pc : Nat) : (s.hostGoto pc).res0 = s.res0 := rfl
@[simp] theorem State.hostGoto_res1 (s : State) (pc : Nat) : (s.hostGoto pc).res1 = s.res1 := rfl
@[simp] theorem State.hostGoto_res2 (s : State) (pc : Nat) : (s.hostGoto pc).res2 = s.res2 := rfl
@[simp] theorem State.hostGoto_res3 (s : State) (pc : Nat) : (s.hostGoto pc).res3 = s.res3 := rfl
@[simp] theorem State.hostGoto_res4 (s : State) (pc : Nat) : (s.hostGoto pc).res4 = s.res4 := rfl
@[simp] theorem State.hostGoto_res5 (s : State) (pc : Nat) : (s.hostGoto pc).res5 = s.res5 := rfl
@[simp] theorem State.hostGoto_pending (s : State) (pc : Nat) : (s.hostGoto pc).pending = s.pending := rfl
@[simp] theorem State.hostGoto_mem (s : State) (pc : Nat) : (s.hostGoto pc).mem = s.mem := rfl
@[simp] theorem State.hostGoto_disturbed (s : State) (pc : Nat) : (s.hostGoto pc).disturbed = s.disturbed := rfl
@[simp] theorem State.hostGoto_tick (s : State) (pc : Nat) : (s.hostGoto pc).tick = s.tick := rfl
@[simp] theorem State.hostGoto_turns (s : State) (pc : Nat) : (s.hostGoto pc).turns = s.turns := rfl
@[simp] theorem State.hostGoto_host (s : State) (pc : Nat) : (s.hostGoto pc).host = { s.host with pc := pc } := rfl

/-! ## The host takes note of a value -/

@[simp] theorem State.hostNote_memSize (s : State) (v : Word) : (s.hostNote v).memSize = s.memSize := rfl
@[simp] theorem State.hostNote_cmd (s : State) (v : Word) : (s.hostNote v).cmd = s.cmd := rfl
@[simp] theorem State.hostNote_done (s : State) (v : Word) : (s.hostNote v).done = s.done := rfl
@[simp] theorem State.hostNote_err (s : State) (v : Word) : (s.hostNote v).err = s.err := rfl
@[simp] theorem State.hostNote_errcode (s : State) (v : Word) : (s.hostNote v).errcode = s.errcode := rfl
@[simp] theorem State.hostNote_errinfo (s : State) (v : Word) : (s.hostNote v).errinfo = s.errinfo := rfl
@[simp] theorem State.hostNote_inBase (s : State) (v : Word) : (s.hostNote v).inBase = s.inBase := rfl
@[simp] theorem State.hostNote_inLen (s : State) (v : Word) : (s.hostNote v).inLen = s.inLen := rfl
@[simp] theorem State.hostNote_auxBase (s : State) (v : Word) : (s.hostNote v).auxBase = s.auxBase := rfl
@[simp] theorem State.hostNote_auxLen (s : State) (v : Word) : (s.hostNote v).auxLen = s.auxLen := rfl
@[simp] theorem State.hostNote_outBase (s : State) (v : Word) : (s.hostNote v).outBase = s.outBase := rfl
@[simp] theorem State.hostNote_outLen (s : State) (v : Word) : (s.hostNote v).outLen = s.outLen := rfl
@[simp] theorem State.hostNote_cur (s : State) (v : Word) : (s.hostNote v).cur = s.cur := rfl
@[simp] theorem State.hostNote_arg0 (s : State) (v : Word) : (s.hostNote v).arg0 = s.arg0 := rfl
@[simp] theorem State.hostNote_arg1 (s : State) (v : Word) : (s.hostNote v).arg1 = s.arg1 := rfl
@[simp] theorem State.hostNote_arg2 (s : State) (v : Word) : (s.hostNote v).arg2 = s.arg2 := rfl
@[simp] theorem State.hostNote_arg3 (s : State) (v : Word) : (s.hostNote v).arg3 = s.arg3 := rfl
@[simp] theorem State.hostNote_res0 (s : State) (v : Word) : (s.hostNote v).res0 = s.res0 := rfl
@[simp] theorem State.hostNote_res1 (s : State) (v : Word) : (s.hostNote v).res1 = s.res1 := rfl
@[simp] theorem State.hostNote_res2 (s : State) (v : Word) : (s.hostNote v).res2 = s.res2 := rfl
@[simp] theorem State.hostNote_res3 (s : State) (v : Word) : (s.hostNote v).res3 = s.res3 := rfl
@[simp] theorem State.hostNote_res4 (s : State) (v : Word) : (s.hostNote v).res4 = s.res4 := rfl
@[simp] theorem State.hostNote_res5 (s : State) (v : Word) : (s.hostNote v).res5 = s.res5 := rfl
@[simp] theorem State.hostNote_pending (s : State) (v : Word) : (s.hostNote v).pending = s.pending := rfl
@[simp] theorem State.hostNote_mem (s : State) (v : Word) : (s.hostNote v).mem = s.mem := rfl
@[simp] theorem State.hostNote_disturbed (s : State) (v : Word) : (s.hostNote v).disturbed = s.disturbed := rfl
@[simp] theorem State.hostNote_tick (s : State) (v : Word) : (s.hostNote v).tick = s.tick + 1 := rfl
@[simp] theorem State.hostNote_turns (s : State) (v : Word) : (s.hostNote v).turns = s.turns := rfl
@[simp] theorem State.hostNote_host (s : State) (v : Word) : (s.hostNote v).host = { s.host with readings := v :: s.host.readings } := rfl

/-! ## The state of a completed command -/

@[simp] theorem State.completed_memSize (s : State) : (s.completed).memSize = s.memSize := rfl
@[simp] theorem State.completed_cmd (s : State) : (s.completed).cmd = s.cmd := rfl
@[simp] theorem State.completed_done (s : State) : (s.completed).done = true := rfl
@[simp] theorem State.completed_err (s : State) : (s.completed).err = s.err := rfl
@[simp] theorem State.completed_errcode (s : State) : (s.completed).errcode = s.errcode := rfl
@[simp] theorem State.completed_errinfo (s : State) : (s.completed).errinfo = s.errinfo := rfl
@[simp] theorem State.completed_inBase (s : State) : (s.completed).inBase = s.inBase := rfl
@[simp] theorem State.completed_inLen (s : State) : (s.completed).inLen = s.inLen := rfl
@[simp] theorem State.completed_auxBase (s : State) : (s.completed).auxBase = s.auxBase := rfl
@[simp] theorem State.completed_auxLen (s : State) : (s.completed).auxLen = s.auxLen := rfl
@[simp] theorem State.completed_outBase (s : State) : (s.completed).outBase = s.outBase := rfl
@[simp] theorem State.completed_outLen (s : State) : (s.completed).outLen = s.outLen := rfl
@[simp] theorem State.completed_cur (s : State) : (s.completed).cur = s.cur := rfl
@[simp] theorem State.completed_arg0 (s : State) : (s.completed).arg0 = s.arg0 := rfl
@[simp] theorem State.completed_arg1 (s : State) : (s.completed).arg1 = s.arg1 := rfl
@[simp] theorem State.completed_arg2 (s : State) : (s.completed).arg2 = s.arg2 := rfl
@[simp] theorem State.completed_arg3 (s : State) : (s.completed).arg3 = s.arg3 := rfl
@[simp] theorem State.completed_res0 (s : State) : (s.completed).res0 = s.res0 := rfl
@[simp] theorem State.completed_res1 (s : State) : (s.completed).res1 = s.res1 := rfl
@[simp] theorem State.completed_res2 (s : State) : (s.completed).res2 = s.res2 := rfl
@[simp] theorem State.completed_res3 (s : State) : (s.completed).res3 = s.res3 := rfl
@[simp] theorem State.completed_res4 (s : State) : (s.completed).res4 = s.res4 := rfl
@[simp] theorem State.completed_res5 (s : State) : (s.completed).res5 = s.res5 := rfl
@[simp] theorem State.completed_pending (s : State) : (s.completed).pending = none := rfl
@[simp] theorem State.completed_mem (s : State) : (s.completed).mem = s.mem := rfl
@[simp] theorem State.completed_disturbed (s : State) : (s.completed).disturbed = false := rfl
@[simp] theorem State.completed_tick (s : State) : (s.completed).tick = s.tick + 1 := rfl
@[simp] theorem State.completed_turns (s : State) : (s.completed).turns = s.turns := rfl
@[simp] theorem State.completed_host (s : State) : (s.completed).host = s.host := rfl

/-! ## The state of an aborted command -/

@[simp] theorem State.aborted_memSize (s : State) (c : Byte) (n : Nat) : (s.aborted c n).memSize = s.memSize := rfl
@[simp] theorem State.aborted_cmd (s : State) (c : Byte) (n : Nat) : (s.aborted c n).cmd = s.cmd := rfl
@[simp] theorem State.aborted_done (s : State) (c : Byte) (n : Nat) : (s.aborted c n).done = s.done := rfl
@[simp] theorem State.aborted_err (s : State) (c : Byte) (n : Nat) : (s.aborted c n).err = true := rfl
@[simp] theorem State.aborted_errcode (s : State) (c : Byte) (n : Nat) : (s.aborted c n).errcode = c := rfl
@[simp] theorem State.aborted_errinfo (s : State) (c : Byte) (n : Nat) : (s.aborted c n).errinfo = BitVec.ofNat 32 (min n 0xFFFFFFFF) := rfl
@[simp] theorem State.aborted_inBase (s : State) (c : Byte) (n : Nat) : (s.aborted c n).inBase = s.inBase := rfl
@[simp] theorem State.aborted_inLen (s : State) (c : Byte) (n : Nat) : (s.aborted c n).inLen = s.inLen := rfl
@[simp] theorem State.aborted_auxBase (s : State) (c : Byte) (n : Nat) : (s.aborted c n).auxBase = s.auxBase := rfl
@[simp] theorem State.aborted_auxLen (s : State) (c : Byte) (n : Nat) : (s.aborted c n).auxLen = s.auxLen := rfl
@[simp] theorem State.aborted_outBase (s : State) (c : Byte) (n : Nat) : (s.aborted c n).outBase = s.outBase := rfl
@[simp] theorem State.aborted_outLen (s : State) (c : Byte) (n : Nat) : (s.aborted c n).outLen = s.outLen := rfl
@[simp] theorem State.aborted_cur (s : State) (c : Byte) (n : Nat) : (s.aborted c n).cur = s.cur := rfl
@[simp] theorem State.aborted_arg0 (s : State) (c : Byte) (n : Nat) : (s.aborted c n).arg0 = s.arg0 := rfl
@[simp] theorem State.aborted_arg1 (s : State) (c : Byte) (n : Nat) : (s.aborted c n).arg1 = s.arg1 := rfl
@[simp] theorem State.aborted_arg2 (s : State) (c : Byte) (n : Nat) : (s.aborted c n).arg2 = s.arg2 := rfl
@[simp] theorem State.aborted_arg3 (s : State) (c : Byte) (n : Nat) : (s.aborted c n).arg3 = s.arg3 := rfl
@[simp] theorem State.aborted_res0 (s : State) (c : Byte) (n : Nat) : (s.aborted c n).res0 = s.res0 := rfl
@[simp] theorem State.aborted_res1 (s : State) (c : Byte) (n : Nat) : (s.aborted c n).res1 = s.res1 := rfl
@[simp] theorem State.aborted_res2 (s : State) (c : Byte) (n : Nat) : (s.aborted c n).res2 = s.res2 := rfl
@[simp] theorem State.aborted_res3 (s : State) (c : Byte) (n : Nat) : (s.aborted c n).res3 = s.res3 := rfl
@[simp] theorem State.aborted_res4 (s : State) (c : Byte) (n : Nat) : (s.aborted c n).res4 = s.res4 := rfl
@[simp] theorem State.aborted_res5 (s : State) (c : Byte) (n : Nat) : (s.aborted c n).res5 = s.res5 := rfl
@[simp] theorem State.aborted_pending (s : State) (c : Byte) (n : Nat) : (s.aborted c n).pending = none := rfl
@[simp] theorem State.aborted_mem (s : State) (c : Byte) (n : Nat) : (s.aborted c n).mem = s.mem := rfl
@[simp] theorem State.aborted_disturbed (s : State) (c : Byte) (n : Nat) : (s.aborted c n).disturbed = false := rfl
@[simp] theorem State.aborted_tick (s : State) (c : Byte) (n : Nat) : (s.aborted c n).tick = s.tick + 1 := rfl
@[simp] theorem State.aborted_turns (s : State) (c : Byte) (n : Nat) : (s.aborted c n).turns = s.turns := rfl
@[simp] theorem State.aborted_host (s : State) (c : Byte) (n : Nat) : (s.aborted c n).host = s.host := rfl

/-! ## A command placed for the next step -/

@[simp] theorem State.issued_memSize (s : State) (w : Word) : (s.issued w).memSize = s.memSize := rfl
@[simp] theorem State.issued_cmd (s : State) (w : Word) : (s.issued w).cmd = w := rfl
@[simp] theorem State.issued_done (s : State) (w : Word) : (s.issued w).done = false := rfl
@[simp] theorem State.issued_err (s : State) (w : Word) : (s.issued w).err = false := rfl
@[simp] theorem State.issued_errcode (s : State) (w : Word) : (s.issued w).errcode = 0 := rfl
@[simp] theorem State.issued_errinfo (s : State) (w : Word) : (s.issued w).errinfo = 0 := rfl
@[simp] theorem State.issued_inBase (s : State) (w : Word) : (s.issued w).inBase = s.inBase := rfl
@[simp] theorem State.issued_inLen (s : State) (w : Word) : (s.issued w).inLen = s.inLen := rfl
@[simp] theorem State.issued_auxBase (s : State) (w : Word) : (s.issued w).auxBase = s.auxBase := rfl
@[simp] theorem State.issued_auxLen (s : State) (w : Word) : (s.issued w).auxLen = s.auxLen := rfl
@[simp] theorem State.issued_outBase (s : State) (w : Word) : (s.issued w).outBase = s.outBase := rfl
@[simp] theorem State.issued_outLen (s : State) (w : Word) : (s.issued w).outLen = s.outLen := rfl
@[simp] theorem State.issued_cur (s : State) (w : Word) : (s.issued w).cur = s.cur := rfl
@[simp] theorem State.issued_arg0 (s : State) (w : Word) : (s.issued w).arg0 = s.arg0 := rfl
@[simp] theorem State.issued_arg1 (s : State) (w : Word) : (s.issued w).arg1 = s.arg1 := rfl
@[simp] theorem State.issued_arg2 (s : State) (w : Word) : (s.issued w).arg2 = s.arg2 := rfl
@[simp] theorem State.issued_arg3 (s : State) (w : Word) : (s.issued w).arg3 = s.arg3 := rfl
@[simp] theorem State.issued_res0 (s : State) (w : Word) : (s.issued w).res0 = s.res0 := rfl
@[simp] theorem State.issued_res1 (s : State) (w : Word) : (s.issued w).res1 = s.res1 := rfl
@[simp] theorem State.issued_res2 (s : State) (w : Word) : (s.issued w).res2 = s.res2 := rfl
@[simp] theorem State.issued_res3 (s : State) (w : Word) : (s.issued w).res3 = s.res3 := rfl
@[simp] theorem State.issued_res4 (s : State) (w : Word) : (s.issued w).res4 = s.res4 := rfl
@[simp] theorem State.issued_res5 (s : State) (w : Word) : (s.issued w).res5 = s.res5 := rfl
@[simp] theorem State.issued_pending (s : State) (w : Word) : (s.issued w).pending = some w := rfl
@[simp] theorem State.issued_mem (s : State) (w : Word) : (s.issued w).mem = s.mem := rfl
@[simp] theorem State.issued_disturbed (s : State) (w : Word) : (s.issued w).disturbed = s.disturbed := rfl
@[simp] theorem State.issued_tick (s : State) (w : Word) : (s.issued w).tick = s.tick := rfl
@[simp] theorem State.issued_turns (s : State) (w : Word) : (s.issued w).turns = .engine :: s.turns := rfl
@[simp] theorem State.issued_host (s : State) (w : Word) : (s.issued w).host = s.host := rfl

end Sys2Proof.Machine
end

