-- ==== Sys2Proof/Laws/Memory.lean ====
section
/-! SUPPORT. The laws of MEM: a read after a write gives the value written, a write leaves every other byte alone, and
every memory operation keeps the canonical form. -/

namespace Sys2Proof.Machine

@[simp] theorem Memory.read?_nil (a : Nat) : Memory.read? [] a = none := rfl

theorem Memory.read?_cons (c : Host.Cell) (m : Memory) (a : Nat) :
    Memory.read? (c :: m) a = if c.1 = a then some c.2 else m.read? a := rfl

theorem Memory.read?_append (m n : Memory) (a : Nat) :
    Memory.read? (m ++ n) a = (m.read? a).or (n.read? a) := by
  induction m with
  | nil => rfl
  | cons c m ih =>
    rw [List.cons_append, Memory.read?_cons, Memory.read?_cons, ih]
    split <;> simp

/-- A filter that keeps an address's cells keeps what the address reads as. -/
theorem Memory.read?_filter_keep (m : Memory) (p : Nat → Bool) (a : Nat) (h : p a = true) :
    Memory.read? (m.filter (fun c => p c.1)) a = m.read? a := by
  induction m with
  | nil => rfl
  | cons c m ih =>
    by_cases hc : p c.1 = true
    · rw [List.filter_cons, if_pos hc, Memory.read?_cons, Memory.read?_cons, ih]
    · have hne : c.1 ≠ a := fun he => hc (he ▸ h)
      rw [List.filter_cons, if_neg hc, ih, Memory.read?_cons, if_neg hne]

/-- A filter that drops an address's cells leaves nothing to read there. -/
theorem Memory.read?_filter_drop (m : Memory) (p : Nat → Bool) (a : Nat) (h : p a = false) :
    Memory.read? (m.filter (fun c => p c.1)) a = none := by
  induction m with
  | nil => rfl
  | cons c m ih =>
    by_cases hc : p c.1 = true
    · have hne : c.1 ≠ a := fun he => by simp [he, h] at hc
      rw [List.filter_cons, if_pos hc, Memory.read?_cons, if_neg hne, ih]
    · rw [List.filter_cons, if_neg hc, ih]

theorem cellsFrom_read?_outside (bytes : List Byte) (a x : Nat) (h : x < a ∨ a + bytes.length ≤ x) :
    Memory.read? (cellsFrom a bytes) x = none := by
  induction bytes generalizing a with
  | nil => rfl
  | cons b rest ih =>
    rw [List.length_cons] at h
    rw [cellsFrom, Memory.read?_cons, if_neg (by simp only; omega), ih (a + 1) (by omega)]

theorem cellsFrom_read?_inside (bytes : List Byte) (a k : Nat) (h : k < bytes.length) :
    Memory.read? (cellsFrom a bytes) (a + k) = bytes[k]? := by
  induction bytes generalizing a k with
  | nil => simp at h
  | cons b rest ih =>
    rw [cellsFrom, Memory.read?_cons]
    cases k with
    | zero => simp
    | succ k =>
      rw [if_neg (by simp only; omega), show a + (k + 1) = a + 1 + k by omega, ih (a + 1) k (by simpa using h)]
      simp

@[simp] theorem Memory.writeBytes_nil (m : Memory) (a : Nat) : m.writeBytes a [] = m := rfl

/-- A byte inside the written range reads as what was written. -/
theorem Memory.read?_writeBytes_inside (m : Memory) (a k : Nat) (bytes : List Byte) (h : k < bytes.length) :
    (m.writeBytes a bytes).read? (a + k) = bytes[k]? := by
  cases bytes with
  | nil => simp at h
  | cons b rest =>
    rw [Memory.writeBytes, Memory.read?_append, Memory.read?_append,
      Memory.read?_filter_drop m (fun x => decide (x < a)) (a + k) (by simp),
      cellsFrom_read?_inside (b :: rest) a k h, List.getElem?_eq_getElem h]
    simp

/-- A byte outside the written range reads as before. -/
theorem Memory.read?_writeBytes_outside (m : Memory) (a x : Nat) (bytes : List Byte)
    (h : x < a ∨ a + bytes.length ≤ x) : (m.writeBytes a bytes).read? x = m.read? x := by
  cases bytes with
  | nil => rfl
  | cons b rest =>
    rw [Memory.writeBytes, Memory.read?_append, Memory.read?_append,
      cellsFrom_read?_outside (b :: rest) a x h]
    rw [List.length_cons] at h
    rcases h with h | h
    · rw [Memory.read?_filter_keep m (fun y => decide (y < a)) x (by simpa using h),
        Memory.read?_filter_drop m (fun y => decide (a + (rest.length + 1) ≤ y)) x (by simp; omega)]
      simp
    · rw [Memory.read?_filter_drop m (fun y => decide (y < a)) x (by simp; omega),
        Memory.read?_filter_keep m (fun y => decide (a + (rest.length + 1) ≤ y)) x (by simpa using h)]
      simp

theorem cellsFrom_bounds (bytes : List Byte) (a : Nat) (c : Host.Cell) (h : c ∈ cellsFrom a bytes) :
    a ≤ c.1 ∧ c.1 < a + bytes.length := by
  induction bytes generalizing a with
  | nil => simp [cellsFrom] at h
  | cons b rest ih =>
    rcases List.mem_cons.mp h with rfl | h
    · simp
    · have := ih (a + 1) h
      simp only [List.length_cons]
      omega

theorem cellsFrom_wf (bytes : List Byte) (a : Nat) : Memory.wf (cellsFrom a bytes) := by
  induction bytes generalizing a with
  | nil => exact List.Pairwise.nil
  | cons b rest ih =>
    refine List.Pairwise.cons (fun c hc => ?_) (ih (a + 1))
    have := cellsFrom_bounds rest (a + 1) c hc
    simp only
    omega

/-- Writing bytes keeps the canonical form of MEM. -/
theorem Memory.writeBytes_wf (m : Memory) (a : Nat) (bytes : List Byte) (h : m.wf) : (m.writeBytes a bytes).wf := by
  cases bytes with
  | nil => exact h
  | cons b rest =>
    rw [Memory.writeBytes]
    refine List.pairwise_append.mpr ⟨List.pairwise_append.mpr ⟨h.filter _, cellsFrom_wf _ a, ?_⟩, h.filter _, ?_⟩
    · intro x hx y hy
      have hx' := (List.mem_filter.mp hx).2
      have hy' := cellsFrom_bounds _ a y hy
      simp only [decide_eq_true_eq] at hx'
      omega
    · intro x hx y hy
      have hy' := (List.mem_filter.mp hy).2
      simp only [decide_eq_true_eq] at hy'
      rcases List.mem_append.mp hx with hx | hx
      · have hx' := (List.mem_filter.mp hx).2
        simp only [decide_eq_true_eq] at hx'
        omega
      · have hx' := cellsFrom_bounds _ a x hx
        rw [List.length_cons] at hx'
        omega

/-- Writing one byte keeps the canonical form of MEM. -/
theorem Memory.write_wf (m : Memory) (a : Nat) (b : Byte) (h : m.wf) : (m.write a b).wf :=
  Memory.writeBytes_wf m a [b] h

/-- A cell of MEM after a write is an old cell or lies in the written range. -/
theorem Memory.mem_writeBytes (m : Memory) (a : Nat) (bytes : List Byte) (c : Host.Cell)
    (h : c ∈ m.writeBytes a bytes) : c ∈ m ∨ (a ≤ c.1 ∧ c.1 < a + bytes.length) := by
  cases bytes with
  | nil => exact .inl h
  | cons b rest =>
    rcases List.mem_append.mp h with h | h
    · rcases List.mem_append.mp h with h | h
      · exact .inl (List.mem_filter.mp h).1
      · exact .inr (cellsFrom_bounds _ a c h)
    · exact .inl (List.mem_filter.mp h).1

/-- What a one-byte write leaves to read. -/
theorem Memory.read?_write (m : Memory) (a x : Nat) (b : Byte) :
    (m.write a b).read? x = if x = a then some b else m.read? x := by
  by_cases h : x = a
  · subst h
    rw [if_pos rfl]
    exact Memory.read?_writeBytes_inside m x 0 [b] (by simp)
  · rw [if_neg h]
    exact Memory.read?_writeBytes_outside m a x [b] (by simp only [List.length_singleton]; omega)

/-- The commit keeps the canonical form of MEM. -/
theorem State.committed_wf (s : State) (out : Option (List Byte)) (h : s.mem.wf) : (s.committed out).wf := by
  cases out with
  | none => exact h
  | some bytes => exact Memory.writeBytes_wf _ _ _ h

@[simp] theorem State.committed_none (s : State) : s.committed none = s.mem := rfl

@[simp] theorem State.committed_some (s : State) (bytes : List Byte) :
    s.committed (some bytes) = s.mem.writeBytes (s.base .out) bytes := rfl

end Sys2Proof.Machine
end

