-- ==== Sys2Proof/Laws/Ops.lean ====
section
/-! SUPPORT. One lemma per shared operation that says all it can do: the checks, the reads of a region, and the end of a
command. -/

namespace Sys2Proof.Machine

/-! ## Checks -/

theorem State.regionFits_iff (s : State) (r : RegionId) : s.regionFits r = true ↔ s.Fits r := by
  simp [State.regionFits, State.Fits]

theorem State.outOverlaps_iff (s : State) (r : RegionId) : s.outOverlaps r = false ↔ s.ClearOf r := by
  simp only [State.outOverlaps, overlaps, State.ClearOf, Bool.and_eq_false_iff, decide_eq_false_iff_not]
  omega

theorem checkRegion_ok (s : State) (r : RegionId) (h : s.Fits r) : checkRegion s r = .ok () := by
  rw [checkRegion, if_pos ((State.regionFits_iff s r).mpr h)]

theorem checkRegion_error (s : State) (r : RegionId) (h : ¬ s.Fits r) :
    checkRegion s r = .error (.bufferRange (regionNumber r)) := by
  rw [checkRegion, if_neg (fun h' => h ((State.regionFits_iff s r).mp h'))]

theorem checkOverlap_ok (s : State) (r : RegionId) (h : s.ClearOf r) : checkOverlap s r = .ok () := by
  rw [checkOverlap, (State.outOverlaps_iff s r).mpr h]
  rfl

theorem checkOverlap_error (s : State) (r : RegionId) (h : ¬ s.ClearOf r) :
    checkOverlap s r = .error (.regionOverlap (regionNumber r)) := by
  have : s.outOverlaps r = true := by
    rw [← Bool.not_eq_false]
    exact fun h' => h ((State.outOverlaps_iff s r).mp h')
  rw [checkOverlap, if_pos this]

theorem checkInOut_ok (s : State) (h : s.InOutReady) : checkInOut s = .ok () := by
  rw [checkInOut, checkRegion_ok s .inp h.inFits, checkRegion_ok s .out h.outFits, checkOverlap_ok s .inp h.inClear]
  rfl

theorem checkInAuxOut_ok (s : State) (h : s.InAuxOutReady) : checkInAuxOut s = .ok () := by
  rw [checkInAuxOut, checkRegion_ok s .inp h.inFits, checkRegion_ok s .aux h.auxFits, checkRegion_ok s .out h.outFits,
    checkOverlap_ok s .inp h.inClear, checkOverlap_ok s .aux h.auxClear]
  rfl

/-- Every outcome of the checks of IN and OUT. -/
theorem checkInOut_cases (s : State) :
    (checkInOut s = .ok () ∧ s.InOutReady)
      ∨ (checkInOut s = .error (.bufferRange 1) ∧ ¬ s.Fits .inp)
      ∨ (checkInOut s = .error (.bufferRange 3) ∧ s.Fits .inp ∧ ¬ s.Fits .out)
      ∨ (checkInOut s = .error (.regionOverlap 1) ∧ s.Fits .inp ∧ s.Fits .out ∧ ¬ s.ClearOf .inp) := by
  by_cases h1 : s.Fits .inp
  · by_cases h2 : s.Fits .out
    · by_cases h3 : s.ClearOf .inp
      · exact .inl ⟨checkInOut_ok s ⟨h1, h2, h3⟩, ⟨h1, h2, h3⟩⟩
      · refine .inr (.inr (.inr ⟨?_, h1, h2, h3⟩))
        rw [checkInOut, checkRegion_ok s .inp h1, checkRegion_ok s .out h2, checkOverlap_error s .inp h3]
        rfl
    · refine .inr (.inr (.inl ⟨?_, h1, h2⟩))
      rw [checkInOut, checkRegion_ok s .inp h1, checkRegion_error s .out h2]
      rfl
  · refine .inr (.inl ⟨?_, h1⟩)
    rw [checkInOut, checkRegion_error s .inp h1]
    rfl

/-- Every outcome of the checks of IN, AUX and OUT. -/
theorem checkInAuxOut_cases (s : State) :
    (checkInAuxOut s = .ok () ∧ s.InAuxOutReady)
      ∨ (checkInAuxOut s = .error (.bufferRange 1) ∧ ¬ s.Fits .inp)
      ∨ (checkInAuxOut s = .error (.bufferRange 2) ∧ s.Fits .inp ∧ ¬ s.Fits .aux)
      ∨ (checkInAuxOut s = .error (.bufferRange 3) ∧ s.Fits .inp ∧ s.Fits .aux ∧ ¬ s.Fits .out)
      ∨ (checkInAuxOut s = .error (.regionOverlap 1) ∧ s.Fits .inp ∧ s.Fits .aux ∧ s.Fits .out ∧ ¬ s.ClearOf .inp)
      ∨ (checkInAuxOut s = .error (.regionOverlap 2) ∧ s.Fits .inp ∧ s.Fits .aux ∧ s.Fits .out ∧ s.ClearOf .inp
          ∧ ¬ s.ClearOf .aux) := by
  by_cases h1 : s.Fits .inp
  · by_cases h2 : s.Fits .aux
    · by_cases h3 : s.Fits .out
      · by_cases h4 : s.ClearOf .inp
        · by_cases h5 : s.ClearOf .aux
          · exact .inl ⟨checkInAuxOut_ok s ⟨h1, h2, h3, h4, h5⟩, ⟨h1, h2, h3, h4, h5⟩⟩
          · refine .inr (.inr (.inr (.inr (.inr ⟨?_, h1, h2, h3, h4, h5⟩))))
            rw [checkInAuxOut, checkRegion_ok s .inp h1, checkRegion_ok s .aux h2, checkRegion_ok s .out h3,
              checkOverlap_ok s .inp h4, checkOverlap_error s .aux h5]
            rfl
        · refine .inr (.inr (.inr (.inr (.inl ⟨?_, h1, h2, h3, h4⟩))))
          rw [checkInAuxOut, checkRegion_ok s .inp h1, checkRegion_ok s .aux h2, checkRegion_ok s .out h3,
            checkOverlap_error s .inp h4]
          rfl
      · refine .inr (.inr (.inr (.inl ⟨?_, h1, h2, h3⟩)))
        rw [checkInAuxOut, checkRegion_ok s .inp h1, checkRegion_ok s .aux h2, checkRegion_error s .out h3]
        rfl
    · refine .inr (.inr (.inl ⟨?_, h1, h2⟩))
      rw [checkInAuxOut, checkRegion_ok s .inp h1, checkRegion_error s .aux h2]
      rfl
  · refine .inr (.inl ⟨?_, h1⟩)
    rw [checkInAuxOut, checkRegion_error s .inp h1]
    rfl

theorem checkOutput_ok (s : State) (out : List Byte) (h : out.length ≤ s.outLen.toNat) : checkOutput s out = .ok () := by
  rw [checkOutput, if_neg (by omega)]

theorem checkOutput_error (s : State) (out : List Byte) (h : s.outLen.toNat < out.length) :
    checkOutput s out = .error (.outputOverflow out.length) := by
  rw [checkOutput, if_pos h]

/-! ## Sequencing: a command's checks run in the order written -/

@[simp] theorem bind_ok {ε α β : Type} (a : α) (f : α → Except ε β) : (Except.ok a >>= f) = f a := rfl

@[simp] theorem bind_error {ε α β : Type} (e : ε) (f : α → Except ε β) : (Except.error e >>= f) = .error e := rfl

/-- A sequence that succeeds went through its first part. -/
theorem bind_eq_ok {ε α β : Type} (x : Except ε α) (f : α → Except ε β) (b : β) (h : x >>= f = .ok b) :
    ∃ a, x = .ok a ∧ f a = .ok b := by
  cases x with
  | error e => cases h
  | ok a => exact ⟨a, rfl, h⟩

/-! ## Reads of a region -/

@[simp] theorem State.lookBytes_length (s : State) (a n : Nat) : (s.lookBytes a n).length = n := by
  induction n generalizing a with
  | zero => rfl
  | succ n ih => rw [State.lookBytes, List.length_cons, ih]

/-- Byte k of what a read of MEM gives is the byte k places on. -/
theorem State.lookBytes_getElem? (s : State) (a n k : Nat) (h : k < n) : (s.lookBytes a n)[k]? = some (s.look (a + k)) := by
  induction n generalizing a k with
  | zero => omega
  | succ n ih =>
    cases k with
    | zero => rfl
    | succ k =>
      rw [State.lookBytes, List.getElem?_cons_succ, ih (a + 1) k (by omega)]
      congr 2
      omega

@[simp] theorem State.inAll_length (s : State) : s.inAll.length = s.inLen.toNat := by
  simp [State.inAll, State.inBytes, State.len]

@[simp] theorem State.auxAll_length (s : State) : s.auxAll.length = s.auxLen.toNat := by
  simp [State.auxAll, State.auxBytes, State.len]

/-- What a command reads depends only on the bytes it reads. -/
theorem State.lookBytes_congr (s t : State) (a n : Nat) (h : ∀ x, a ≤ x → x < a + n → s.look x = t.look x) :
    s.lookBytes a n = t.lookBytes a n := by
  induction n generalizing a with
  | zero => rfl
  | succ n ih =>
    rw [State.lookBytes, State.lookBytes, h a (by omega) (by omega), ih (a + 1) (fun x h1 h2 => h x (by omega) (by omega))]

/-- A byte written since reset reads as written, unless the command is disturbed. -/
theorem State.look_written (s : State) (a : Nat) (b : Byte) (hd : s.disturbed = false) (h : s.mem.read? a = some b) :
    s.look a = b := by
  simp [State.look, hd, h]

/-! ## The end of a command -/

/-- An undisturbed success commits exactly its results. -/
theorem State.finish_undisturbed (s : State) (f : Effect) (h : s.disturbed = false) : s.finish f = s.apply f := by
  simp [State.finish, h]

/-- A disturbed success commits free values. -/
theorem State.finish_disturbed (s : State) (f : Effect) (h : s.disturbed = true) :
    s.finish f = s.apply (f.scrambled s.tick) := by
  simp [State.finish, h]

@[simp] theorem State.settle_ok (s : State) (f : Effect) : s.settle (.ok f) = s.finish f := rfl

@[simp] theorem State.settle_error (s : State) (e : CmdError) : s.settle (.error e) = s.abort e := rfl

/-- A command ends in exactly one of two ways. -/
theorem State.settle_cases (s : State) (r : Except CmdError Effect) :
    (∃ f, r = .ok f ∧ s.settle r = s.apply (if s.disturbed then f.scrambled s.tick else f))
      ∨ ∃ e, r = .error e ∧ s.settle r = s.abort e := by
  cases r with
  | ok f => exact .inl ⟨f, rfl, rfl⟩
  | error e => exact .inr ⟨e, rfl, rfl⟩

/-- Abort, in the terms the claims use. -/
theorem State.abort_eq_aborted (s : State) (e : CmdError) : s.abort e = s.aborted e.code e.info := rfl

/-- The scrambled output is as long as the output. -/
theorem Effect.scrambled_out_length (f : Effect) (tick : Nat) (bytes : List Byte) (h : (f.scrambled tick).out = some bytes) :
    ∃ original, f.out = some original ∧ bytes.length = original.length := by
  cases hf : f.out with
  | none => simp [Effect.scrambled, hf] at h
  | some original =>
    simp only [Effect.scrambled, hf, Option.map_some, Option.some.injEq] at h
    exact ⟨original, rfl, by simp [← h]⟩

@[simp] theorem Effect.scrambled_cur (f : Effect) (tick : Nat) : (f.scrambled tick).cur = f.cur := rfl

/-- The committed output is in MEM, and every other byte is as it was. -/
theorem State.wroteOut_committed (s : State) (bytes : List Byte) : s.WroteOut (s.committed (some bytes)) bytes :=
  ⟨fun k h => Memory.read?_writeBytes_inside s.mem (s.base .out) k bytes h,
   fun a h => Memory.read?_writeBytes_outside s.mem (s.base .out) a bytes h⟩

end Sys2Proof.Machine
end

