-- ==== Sys2Proof/Laws/Codec.lean ====
section
/-! SUPPORT. What the codec functions can answer: lengths, progress of the scans, and that their fuel is never used up. -/

namespace Sys2Proof.Machine

@[simp] theorem le16_length (v : Nat) : (le16 v).length = 2 := rfl

@[simp] theorem le32_length (v : Nat) : (le32 v).length = 4 := rfl

/-- A framed block is 4 bytes longer than its payload (41_block R121). -/
@[simp] theorem frame_length (flag : Byte) (payload : List Byte) : (frame flag payload).length = payload.length + 4 := by
  simp [frame]
  omega

@[simp] theorem nameField_length (name : List Byte) : (nameField name).length = 10 := by
  simp only [nameField, Config.nameLen, List.length_append, List.length_take, List.length_replicate]
  omega

/-- A header payload is 17 bytes long (42_header R144). -/
@[simp] theorem headerPayload_length (t : Byte) (name : List Byte) (d p1 p2 : Nat) :
    (headerPayload t name d p1 p2).length = 17 := by
  simp [headerPayload]

/-! ## Blocks -/

/-- A parsed block ends inside the buffer, at least 2 bytes on (41_block R122, 43_container R164). -/
theorem parseBlock_progress (t : List Byte) (p : Nat) (r : Block × Nat) (h : parseBlock t p = .ok r) :
    p + 2 ≤ r.2 ∧ r.2 ≤ t.length := by
  unfold parseBlock at h
  simp only at h
  split at h
  · cases h
  · split at h
    · cases h
      exact ⟨Nat.le_refl _, by simp only; omega⟩
    · split at h
      · cases h
      · cases h
        exact ⟨by simp only; omega, by simp only; omega⟩

/-- A block that cannot be parsed is out of bounds at its own offset (41_block R122). -/
theorem parseBlock_error (t : List Byte) (p : Nat) (e : CmdError) (h : parseBlock t p = .error e) :
    e = .outOfBounds p := by
  unfold parseBlock at h
  simp only at h
  split at h
  · cases h; rfl
  · split at h
    · cases h
    · split at h
      · cases h; rfl
      · cases h

/-- The fuel of the container scan is never used up: more fuel gives the same answer (43_container R164, log 16). -/
theorem containerFrom_fuel (t : List Byte) (verify : Bool) (fuel q : Nat) (h : t.length - q ≤ fuel) :
    containerFrom t verify (fuel + 1) q = containerFrom t verify fuel q := by
  induction fuel generalizing q with
  | zero =>
    have hq : ¬ q < t.length := by omega
    simp [containerFrom, hq]
  | succ fuel ih =>
    by_cases hq : q < t.length
    · rw [containerFrom, if_pos hq, containerFrom, if_pos hq]
      cases hp : parseBlock t q with
      | error e => rfl
      | ok r =>
        have := parseBlock_progress t q r hp
        simp only [bind_ok]
        rw [ih r.2 (by omega)]
    · rw [containerFrom, if_neg hq, containerFrom, if_neg hq]

@[simp] theorem blockEntry_length (b : Block) (off : Nat) : (blockEntry b off).length = 12 := rfl

@[simp] theorem blockEntries_length (bs : List Block) (off : Nat) : (blockEntries bs off).length = 12 * bs.length := by
  induction bs generalizing off with
  | nil => rfl
  | cons b bs ih => simp [blockEntries, ih]; omega

/-- The block table is 4 + 12·N bytes and then the payloads (30_encoding R83). -/
theorem blockTable_length (bs : List Block) :
    (blockTable bs).length = 4 + 12 * bs.length + (bs.flatMap Block.payload).length := by
  simp [blockTable]
  omega

/-! ## Sprite records -/

theorem flatMap_map_range_length (m n : Nat) (f : Nat → Nat → Byte) :
    ((List.range m).flatMap (fun r => (List.range n).map (f r))).length = m * n := by
  simp [List.length_flatMap]

/-- A packed record is RecordSize(w, h) bytes long (44_sprite R181, R182). -/
@[simp] theorem packRecord_length (id nxt : Nat) (e : Entry) : (packRecord id nxt e).length = e.recordSize := by
  simp only [packRecord, List.length_append, flatMap_map_range_length, le16_length, List.length_cons, List.length_nil,
    Entry.recordSize, recordSize]
  generalize e.w.toNat = w
  generalize e.h.toNat = h
  have : 8 * h * w + h * w = 9 * w * h := by ring
  omega

theorem recordSize_pos (w h : Nat) : 5 ≤ recordSize w h := by
  simp [recordSize]

/-- A chain that succeeds is as long as its records together (44_sprite R186). -/
theorem chainFrom_length (ents : List Entry) (id addr : Nat) (out : List Byte) (h : chainFrom ents id addr = .ok out) :
    out.length = totalBytes ents := by
  induction ents generalizing id addr out with
  | nil => cases h; rfl
  | cons e rest ih =>
    rw [chainFrom] at h
    split at h
    · cases h
    · obtain ⟨tail, ht, hout⟩ := bind_eq_ok _ _ _ h
      cases hout
      simp [totalBytes, ih _ _ _ ht]

/-- Where the packed scan does not stop, a whole record stands (44_sprite R185). -/
theorem scanStop_none (t : List Byte) (o count : Nat) (h : scanStop t o count = none) :
    t.getD o 0 ≠ 0 ∧ t.getD (o + 3) 0 ≠ 0 ∧ t.getD (o + 4) 0 ≠ 0 ∧ count ≠ 255
      ∧ o + recordSize (t.getD (o + 3) 0).toNat (t.getD (o + 4) 0).toNat ≤ t.length := by
  simp only [scanStop, Config.maxRecords] at h
  split at h
  · cases h
  split at h
  · cases h
  rename_i h1 h2
  split at h
  · cases h
  split at h
  · cases h
  rename_i h3 h4
  split at h
  · cases h
  rename_i h5
  have h6 : count ≠ 255 := fun hc => by simp [hc] at h
  exact ⟨h2, fun hw => h4 (.inl hw), fun hh => h4 (.inr hh), h6, by omega⟩

/-- The fuel of the packed scan is never used up: more fuel gives the same answer (44_sprite R185, log 16). -/
theorem scanFrom_fuel (t : List Byte) (fuel o count : Nat) (h : t.length - o < fuel) :
    scanFrom t (fuel + 1) o count = scanFrom t fuel o count := by
  induction fuel generalizing o count with
  | zero => omega
  | succ fuel ih =>
    conv => rhs; rw [scanFrom]
    rw [scanFrom]
    cases hs : scanStop t o count with
    | some reason => rfl
    | none =>
      have hp := recordSize_pos (t.getD (o + 3) 0).toNat (t.getD (o + 4) 0).toNat
      have hn := (scanStop_none t o count hs).2.2.2.2
      simp only
      rw [ih _ _ (by omega)]

/-- An entry whose parts have the lengths of its dimensions is EntrySize(w, h) bytes long (44_sprite R181). -/
theorem Entry.bytes_length (e : Entry) (hp : e.pixels.length = 64 * e.w.toNat * e.h.toNat)
    (ha : e.attrs.length = e.w.toNat * e.h.toNat) : e.bytes.length = entrySize e.w.toNat e.h.toNat := by
  have : 65 * e.w.toNat * e.h.toNat = 64 * e.w.toNat * e.h.toNat + e.w.toNat * e.h.toNat := by ring
  simp only [Entry.bytes, entrySize, List.length_append, hp, ha, List.length_cons, List.length_nil]
  omega

/-- What stands at the offset of an entry of a USF image is that entry (30_encoding R86). -/
theorem entryAt_bytes (start more : List Byte) (e : Entry) (hp : e.pixels.length = 64 * e.w.toNat * e.h.toNat)
    (ha : e.attrs.length = e.w.toNat * e.h.toNat) :
    entryAt (start ++ (e.bytes ++ more)) start.length e.w e.h = e := by
  obtain ⟨w, h, pixels, attrs⟩ := e
  simp only at hp ha
  have h2 : (start ++ (Entry.bytes ⟨w, h, pixels, attrs⟩ ++ more)).drop (start.length + 2) = pixels ++ (attrs ++ more) := by
    simp [Entry.bytes, ← List.drop_drop]
  have h3 : (start ++ (Entry.bytes ⟨w, h, pixels, attrs⟩ ++ more)).drop (start.length + 2 + 64 * w.toNat * h.toNat)
      = attrs ++ more := by
    rw [← List.drop_drop, h2, ← hp, List.drop_left]
  rw [entryAt, h2, h3, ← hp, ← ha, List.take_left, List.take_left]

/-- One turn of the USF parser over an entry that stands there (44_sprite R184). -/
theorem parseEntries_cons (start more : List Byte) (e : Entry) (n : Nat) (ents : List Entry) (hw : e.w ≠ 0) (hh : e.h ≠ 0)
    (hp : e.pixels.length = 64 * e.w.toNat * e.h.toNat) (ha : e.attrs.length = e.w.toNat * e.h.toNat)
    (h : parseEntries (start ++ (e.bytes ++ more)) n (start ++ e.bytes).length = .ok ents) :
    parseEntries (start ++ (e.bytes ++ more)) (n + 1) start.length = .ok (e :: ents) := by
  have hl := Entry.bytes_length e hp ha
  have hrem : (start ++ (e.bytes ++ more)).length - start.length = entrySize e.w.toNat e.h.toNat + more.length := by
    simp [hl]
  have hd0 : (start ++ (e.bytes ++ more)).getD start.length 0 = e.w := by simp [Entry.bytes]
  have hd1 : (start ++ (e.bytes ++ more)).getD (start.length + 1) 0 = e.h := by simp [Entry.bytes]
  have hpos : 2 ≤ entrySize e.w.toNat e.h.toNat := by simp [entrySize]
  rw [parseEntries, hrem, if_neg (by omega)]
  simp only [hd0, hd1]
  rw [if_neg (not_or.mpr ⟨hw, hh⟩), if_neg (by omega), ← hl, ← List.length_append, h, entryAt_bytes start more e hp ha]
  rfl

end Sys2Proof.Machine
end

