-- ==== Sys2Proof/Laws/PerInstr.lean ====
section
/-! SUPPORT. Facts about every instruction as syntax, one lemma per constructor. -/

namespace Sys2Proof.Laws.EncodesItsTableRow

/-- The word an instruction encodes to is accepted by the row of the opcode table that bears its mnemonic and its
opcode (30_encoding R74). -/
def Statement (i : Instr) : Prop :=
  ∃ r ∈ opcodeTable, r.mnemonic = i.mnemonic ∧ r.opc = i.opc ∧ r.accepts (encode i) = true

theorem blkEncode_accepts : ∀ n : Byte, (commandWord 0x11 n) &&& 0xFFFF00FF = 0x00000011 := by decide

theorem xorCsum_accepts : ∀ n : Byte, (commandWord 0x12 n) &&& 0xFFFF00FF = 0x00000012 := by decide

theorem curOpen : Statement .curOpen := ⟨⟨0x01, "CUR_OPEN", .c0, 0x00000001, 0xFFFFFFFF⟩, by decide, rfl, rfl, rfl⟩

theorem curReadU8 : Statement .curReadU8 :=
  ⟨⟨0x02, "CUR_READ_U8", .c0, 0x00000002, 0xFFFFFFFF⟩, by decide, rfl, rfl, rfl⟩

theorem curReadU16le : Statement .curReadU16le :=
  ⟨⟨0x03, "CUR_READ_U16LE", .c0, 0x00000003, 0xFFFFFFFF⟩, by decide, rfl, rfl, rfl⟩

theorem curReadBytes : Statement .curReadBytes :=
  ⟨⟨0x04, "CUR_READ_BYTES", .c0, 0x00000004, 0xFFFFFFFF⟩, by decide, rfl, rfl, rfl⟩

theorem curAtEnd : Statement .curAtEnd := ⟨⟨0x05, "CUR_AT_END", .c0, 0x00000005, 0xFFFFFFFF⟩, by decide, rfl, rfl, rfl⟩

theorem blkDecode (verify : Bool) : Statement (.blkDecode verify) :=
  ⟨⟨0x10, "BLK_DECODE", .cv, 0x00000010, 0xFFFFFEFF⟩, by decide, rfl, rfl, by cases verify <;> rfl⟩

theorem blkEncode (flag : Byte) : Statement (.blkEncode flag) :=
  ⟨⟨0x11, "BLK_ENCODE", .ci, 0x00000011, 0xFFFF00FF⟩, by decide, rfl, rfl, beq_iff_eq.mpr (blkEncode_accepts flag)⟩

theorem xorCsum (seed : Byte) : Statement (.xorCsum seed) :=
  ⟨⟨0x12, "XOR_CSUM", .ci, 0x00000012, 0xFFFF00FF⟩, by decide, rfl, rfl, beq_iff_eq.mpr (xorCsum_accepts seed)⟩

theorem hdrDecode : Statement .hdrDecode :=
  ⟨⟨0x20, "HDR_DECODE", .c0, 0x00000020, 0xFFFFFFFF⟩, by decide, rfl, rfl, rfl⟩

theorem hdrEncode : Statement .hdrEncode :=
  ⟨⟨0x21, "HDR_ENCODE", .c0, 0x00000021, 0xFFFFFFFF⟩, by decide, rfl, rfl, rfl⟩

theorem tapDecode (verify : Bool) : Statement (.tapDecode verify) :=
  ⟨⟨0x30, "TAP_DECODE", .cv, 0x00000030, 0xFFFFFEFF⟩, by decide, rfl, rfl, by cases verify <;> rfl⟩

theorem tapEncode : Statement .tapEncode :=
  ⟨⟨0x31, "TAP_ENCODE", .c0, 0x00000031, 0xFFFFFFFF⟩, by decide, rfl, rfl, rfl⟩

theorem sprUnpack : Statement .sprUnpack :=
  ⟨⟨0x40, "SPR_UNPACK", .c0, 0x00000040, 0xFFFFFFFF⟩, by decide, rfl, rfl, rfl⟩

theorem sprPack : Statement .sprPack := ⟨⟨0x41, "SPR_PACK", .c0, 0x00000041, 0xFFFFFFFF⟩, by decide, rfl, rfl, rfl⟩

theorem attrUnpack : Statement .attrUnpack :=
  ⟨⟨0x42, "ATTR_UNPACK", .c0, 0x00000042, 0xFFFFFFFF⟩, by decide, rfl, rfl, rfl⟩

theorem attrPack : Statement .attrPack :=
  ⟨⟨0x43, "ATTR_PACK", .c0, 0x00000043, 0xFFFFFFFF⟩, by decide, rfl, rfl, rfl⟩

theorem layout : Statement .layout := ⟨⟨0x50, "LAYOUT", .c0, 0x00000050, 0xFFFFFFFF⟩, by decide, rfl, rfl, rfl⟩

theorem exportTape : Statement .exportTape := ⟨⟨0x60, "EXPORT", .c0, 0x00000060, 0xFFFFFFFF⟩, by decide, rfl, rfl, rfl⟩

end Sys2Proof.Laws.EncodesItsTableRow
end

