-- ==== Sys2Proof/Tests/Slice0.lean ====
section
/-! SUPPORT. Tests: the refused ill-formed terms, the spec's words, one or two steps per command taken from
spec/95_test_vectors.md, and for every statement with hypotheses a state that meets them, clause by clause. -/

namespace Sys2Proof.Tests

open Sys2Proof.Machine

/-! ## Well-formedness: an ill-formed term for each check -/

theorem test_wf_instr : (Instr.blkEncode 255).wellFormed = true := by decide
theorem test_wf_immediate_256_refused : (CommandText.blkEncodeImm 256).wellFormed = false := by decide
theorem test_wf_seed_256_refused : (CommandText.xorCsumImm 256).wellFormed = false := by decide
theorem test_wf_wide_value_refused : (Stmt.wr .arg0 (2 ^ 32)).wellFormed = false := by decide
theorem test_wf_byte_256_refused : (Stmt.mb 0 [256]).wellFormed = false := by decide
theorem test_wf_mem_past_32_bits_refused : (Stmt.mb (2 ^ 32) [0]).wellFormed = false := by decide
theorem test_wf_command_refused : (Stmt.run (.blkEncodeImm 300)).wellFormed = false := by decide
theorem test_wf_wide_mask_refused : (Stmt.bz .status (2 ^ 32) 0).wellFormed = false := by decide
theorem test_wf_wide_region_refused : (Stmt.region .inp 0 (2 ^ 32)).wellFormed = false := by decide
theorem test_wf_statement_in_program_refused : Stmt.programWellFormed [.mb 0 [256]] = false := by decide
theorem test_wf_label_twice_refused : Stmt.programWellFormed [.label 1, .label 1] = false := by decide
theorem test_wf_label_undefined_refused : Stmt.programWellFormed [.bnz .status 1 7] = false := by decide
theorem test_wf_program : Stmt.programWellFormed [.label 0, .bnz .status 1 0] = true := by decide
theorem test_wf_no_memory_refused : memSizeWellFormed 0 = false := by decide
theorem test_wf_memory_past_32_bits_refused : memSizeWellFormed (2 ^ 32 + 1) = false := by decide

/-! ## Decoding: each word written out from 30_encoding R74: RSV, IMM8, OPC -/

theorem test_decode_cursor :
    decode (0b0000000000000000#16 ++ 0b00000000#8 ++ 0b00000001#8) = .ok .curOpen
      ∧ decode (0b0000000000000000#16 ++ 0b00000000#8 ++ 0b00000010#8) = .ok .curReadU8
      ∧ decode (0b0000000000000000#16 ++ 0b00000000#8 ++ 0b00000011#8) = .ok .curReadU16le
      ∧ decode (0b0000000000000000#16 ++ 0b00000000#8 ++ 0b00000100#8) = .ok .curReadBytes
      ∧ decode (0b0000000000000000#16 ++ 0b00000000#8 ++ 0b00000101#8) = .ok .curAtEnd := by decide

theorem test_decode_block :
    decode (0b0000000000000000#16 ++ 0b00000000#8 ++ 0b00010000#8) = .ok (.blkDecode false)
      ∧ decode (0b0000000000000000#16 ++ 0b00000001#8 ++ 0b00010000#8) = .ok (.blkDecode true)
      ∧ decode (0b0000000000000000#16 ++ 0b01011010#8 ++ 0b00010001#8) = .ok (.blkEncode 0x5A)
      ∧ decode (0b0000000000000000#16 ++ 0b10000001#8 ++ 0b00010010#8) = .ok (.xorCsum 0x81) := by decide

theorem test_decode_header_container :
    decode (0b0000000000000000#16 ++ 0b00000000#8 ++ 0b00100000#8) = .ok .hdrDecode
      ∧ decode (0b0000000000000000#16 ++ 0b00000000#8 ++ 0b00100001#8) = .ok .hdrEncode
      ∧ decode (0b0000000000000000#16 ++ 0b00000000#8 ++ 0b00110000#8) = .ok (.tapDecode false)
      ∧ decode (0b0000000000000000#16 ++ 0b00000001#8 ++ 0b00110000#8) = .ok (.tapDecode true)
      ∧ decode (0b0000000000000000#16 ++ 0b00000000#8 ++ 0b00110001#8) = .ok .tapEncode := by decide

theorem test_decode_sprite_allocator :
    decode (0b0000000000000000#16 ++ 0b00000000#8 ++ 0b01000000#8) = .ok .sprUnpack
      ∧ decode (0b0000000000000000#16 ++ 0b00000000#8 ++ 0b01000001#8) = .ok .sprPack
      ∧ decode (0b0000000000000000#16 ++ 0b00000000#8 ++ 0b01000010#8) = .ok .attrUnpack
      ∧ decode (0b0000000000000000#16 ++ 0b00000000#8 ++ 0b01000011#8) = .ok .attrPack
      ∧ decode (0b0000000000000000#16 ++ 0b00000000#8 ++ 0b01010000#8) = .ok .layout
      ∧ decode (0b0000000000000000#16 ++ 0b00000000#8 ++ 0b01100000#8) = .ok .exportTape := by decide

/-- V-ERR-1 to V-ERR-5: each case of 30_encoding R75, rejected by name. -/
theorem test_decode_illegal :
    decode 0x00000000 = .error .unassignedOpcode ∧ decode 0x00000013 = .error .unassignedOpcode
      ∧ decode 0x00000101 = .error .immediateNotZero ∧ decode 0x00000210 = .error .verifyReservedBits
      ∧ decode 0x00010011 = .error .reservedBits ∧ decodeBytes [0x01, 0, 0] = .error .notOneWord := by decide

theorem test_table_word : decodeTableWord 32 0x0000FF11 = some (.blkEncode 0xFF) ∧ decodeTableWord 32 0 = none := by
  decide

/-- 20_memory R53: lane 0 carries the low byte. -/
theorem test_lanes : lanes 0x12345678 = [0x78, 0x56, 0x34, 0x12] := by decide

/-- 30_encoding R89. -/
theorem test_spelling :
    (Instr.blkDecode true).spelling = "BLK_DECODE.V" ∧ (Instr.exportTape).spelling = "EXPORT" := by decide

/-! ## States -/

/-- Input bytes at 0x10, OUT at 0x400 with room for 0x100 bytes: a small idle machine. -/
def buffer (bytes : List Byte) : State :=
  { State.reset with
    mem := cellsFrom 0x10 bytes
    inBase := 0x10
    inLen := BitVec.ofNat 32 bytes.length
    outBase := 0x400
    outLen := 0x100 }

/-- The same with AUX bytes at 0x200. -/
def buffers (bytes aux : List Byte) : State :=
  { buffer bytes with
    mem := cellsFrom 0x10 bytes ++ cellsFrom 0x200 aux
    auxBase := 0x200
    auxLen := BitVec.ofNat 32 aux.length }

/-- What the next step makes of a command word. -/
def run (w : Nat) (s : State) : Option State :=
  match step (s.withFetchWord 32 w) with
  | .next t => some t
  | _ => none

/-- The error a command word ends in: ERRCODE, ERRINFO, STATUS. -/
def errorOf (w : Nat) (s : State) : Option (Byte × Word × Word) :=
  (run w s).map (fun t => (t.errcode, t.errinfo, t.statusWord))

/-- The first n bytes of OUT. -/
def outBytes (n : Nat) (t : State) : List (Option Byte) :=
  (List.range n).map (fun k => t.mem.read? (t.outBase.toNat + k))

/-- The bytes as a read gives them. -/
def known (bytes : List Byte) : List (Option Byte) := bytes.map some

/-- The source's 1×1 record as a USF image (W1). -/
def usfOne : List Byte := [1, 1, 1] ++ List.replicate 64 0 ++ [0x38]

/-- The same record packed (W1). -/
def packedOne : List Byte := [1, 0, 0, 1, 1, 0, 0, 0, 0, 0, 0, 0, 0, 0x38]

/-! ## Steps, from spec/95_test_vectors.md -/

/-- V-CUR-1. -/
theorem test_CUR_OPEN :
    (run 0x01 { buffer [1, 2, 3, 4, 5, 6, 7, 8] with cur := 7 }).map (fun t => (t.cur, t.statusWord)) = some (0, 0x2) := by
  decide

/-- V-CUR-2. -/
theorem test_CUR_READ_U8 :
    (run 0x02 { buffer [0x7F, 0x80] with cur := 1 }).map (fun t => (t.res0, t.cur, t.statusWord)) = some (0x80, 2, 0xA) := by
  decide

/-- V-CUR-3. -/
theorem test_CUR_READ_U8_past_end : errorOf 0x02 { buffer [0x7F, 0x80] with cur := 2 } = some (1, 2, 0xC) := by decide

/-- V-CUR-7. -/
theorem test_CUR_READ_U16LE :
    (run 0x03 { buffer [0x34, 0x12, 0x56] with cur := 1 }).map (fun t => (t.res0, t.cur)) = some (0x5612, 3) := by decide

/-- V-CUR-8. -/
theorem test_CUR_READ_U16LE_one_left :
    errorOf 0x03 { buffer [0x34, 0x12, 0x56] with cur := 2 } = some (1, 2, 0x4) := by decide

/-- V-CUR-9. -/
theorem test_CUR_READ_BYTES :
    (run 0x04 { buffer [0xAA, 0xBB, 0xCC] with cur := 1, arg0 := 2 }).map (fun t => (outBytes 3 t, t.res0, t.cur))
      = some ([some 0xBB, some 0xCC, none], 2, 3) := by decide

/-- V-CUR-13. -/
theorem test_CUR_READ_BYTES_too_many :
    errorOf 0x04 { buffer [0xAA] with arg0 := 0xFFFFFFFF } = some (1, 0, 0x4) := by decide

/-- V-CUR-18. -/
theorem test_CUR_AT_END :
    (run 0x05 { State.reset with inBase := 0xFFFFFFFF, inLen := 0xFFFFFFFF }).map (fun t => (t.res0, t.statusWord))
      = some (0, 0x2) := by decide

/-- V-BLK-19. -/
theorem test_BLK_DECODE :
    (run 0x10 { buffer [0x01, 0x00, 0x7E, 0x7E, 0x02, 0x00, 0xFF, 0xAA, 0x55] with cur := 4 }).map
        (fun t => ([t.res0, t.res1, t.res2, t.res3, t.res4, t.res5, t.cur], outBytes 1 t))
      = some ([2, 0xFF, 0x55, 0x55, 1, 2, 9], [some 0xAA]) := by decide

/-- V-BLK-12. -/
theorem test_BLK_DECODE_verify : errorOf 0x110 (buffer [0x04, 0x00, 0xFF, 1, 2, 3, 0x00]) = some (5, 0, 0x4) := by decide

/-- V-BLK-1. -/
theorem test_BLK_ENCODE :
    (run 0xFF11 (buffer [1, 2, 3])).map (fun t => (t.res0, t.res1, outBytes 7 t))
      = some (7, 0xFF, known [0x04, 0x00, 0xFF, 1, 2, 3, 0xFF]) := by decide

/-- V-BLK-8. -/
theorem test_BLK_ENCODE_overlap : errorOf 0xFF11 { buffer [1, 2, 3] with outBase := 0x12 } = some (8, 1, 0x4) := by decide

/-- V-BLK-23. -/
theorem test_XOR_CSUM : (run 0xFF12 (buffer [1, 2])).map (fun t => t.res0) = some 0xFC := by decide

/-- V-HDR-5. -/
theorem test_HDR_DECODE :
    (run 0x20 (buffer [0x00, 0x41, 0x42, 0x00, 0x7F, 0x09, 0x20, 0, 0, 0, 0, 1, 2, 3, 4, 5, 6])).map
        (fun t => ([t.res0, t.res1, t.res2, t.res3, t.res4], outBytes 3 t))
      = some ([0, 0x201, 0x403, 0x605, 2], known [0x41, 0x42, 0x00]) := by decide

/-- V-HDR-9. -/
theorem test_HDR_ENCODE :
    (run 0x21 { buffer [0x41, 0x42, 0x43, 0x44, 0x45, 0x46, 0x47, 0x48, 0x49, 0x4A, 0x4B, 0x4C] with
        arg0 := 0x1FF, arg1 := 0x12345, arg2 := 0xFFFF0001, arg3 := 0 }).map (fun t => (t.res0, outBytes 17 t))
      = some (17, known [0xFF, 0x41, 0x42, 0x43, 0x44, 0x45, 0x46, 0x47, 0x48, 0x49, 0x4A, 0x45, 0x23, 1, 0, 0, 0]) := by
  decide

/-- V-TAP-7. -/
theorem test_TAP_DECODE :
    (run 0x30 (buffer [0x00, 0x00, 0x02, 0x00, 0xFF, 0xAA, 0x55])).map (fun t => (t.res0, t.res1, outBytes 29 t))
      = some (2, 0x1D, known ([0x02, 0, 0, 0, 0, 0, 0, 0, 0, 1, 0, 0, 0x1C, 0, 0, 0]
          ++ [0x02, 0x00, 0xFF, 0x55, 0x55, 0x02, 0x01, 0x00, 0x1C, 0, 0, 0, 0xAA])) := by decide

/-- V-ERR-14. -/
theorem test_TAP_DECODE_verify : errorOf 0x130 (buffer [0x01, 0x00, 0x10, 0x11, 0x05]) = some (5, 0, 0x4) := by decide

/-- V-TAP-10. -/
theorem test_TAP_ENCODE :
    (run 0x31 (buffers [0xAA] [1, 2])).map (fun t => (t.res0, t.res1, t.res2, outBytes 11 t))
      = some (11, 0xAA, 0xFC, known [0x02, 0, 0, 0xAA, 0xAA, 0x03, 0, 0xFF, 1, 2, 0xFC]) := by decide

/-- V-SPR-7: a truncated second record. -/
theorem test_SPR_UNPACK :
    (run 0x40 (buffer (packedOne ++ [2, 0, 0, 1, 1, 0, 0]))).map (fun t => ([t.res0, t.res1, t.res2, t.res3], outBytes 4 t))
      = some ([1, 14, 4, 68], known [1, 1, 1, 0]) := by decide +kernel

/-- V-SPR-10, the source's concrete scenario (W1). -/
theorem test_SPR_PACK :
    (run 0x41 { buffer usfOne with arg0 := 0xDCF1 }).map (fun t => (t.res0, t.res1, t.res2, outBytes 14 t))
      = some (14, 1, 0xDCF1, known packedOne) := by decide +kernel

/-- V-SPR-13. -/
theorem test_SPR_PACK_start_too_high : errorOf 0x41 { buffer usfOne with arg0 := 0x10000 } = some (3, 0x10000, 0x4) := by
  decide +kernel

/-- V-SPR-25. -/
theorem test_ATTR_UNPACK :
    (run 0x42 { State.reset with arg0 := 0x1C7 }).map (fun t => (t.res0, t.res1, t.res2, t.res3)) = some (7, 0, 1, 1) := by
  decide

/-- V-SPR-27. -/
theorem test_ATTR_PACK :
    (run 0x43 { State.reset with arg0 := 9, arg1 := 8, arg2 := 3, arg3 := 2 }).map (fun t => t.res0) = some 0x41 := by
  decide

/-- V-ALC-1. -/
theorem test_LAYOUT : (run 0x50 (buffer usfOne)).map (fun t => (t.res0, t.res1, t.res2)) = some (14, 0xDCF1, 1) := by
  decide +kernel

/-- V-ALC-6. -/
theorem test_EXPORT :
    (run 0x60 (buffers [0] [])).map (fun t => ([t.res0, t.res1, t.res2, t.res3], outBytes 25 t))
      = some ([25, 0xDCFF, 0, 0], known ([0x12, 0, 0, 3] ++ List.replicate 10 0x20
          ++ [0, 0, 0xFF, 0xDC, 0, 0x80, 0xA0, 1, 0, 0xFF, 0xFF])) := by decide

/-- V-ERR-2. -/
theorem test_illegal_word : errorOf 0x13 State.reset = some (6, 0x13, 0xC) := by decide

/-! ## The host's side, from 95 part 2.8 -/

/-- A machine with CUR_READ_U8 accepted on a one-byte buffer, the host about to perform `op` (V-LIF-2). -/
def busyHost (op : HostOp) : State :=
  { (buffer [0x7F]).accept 0x02 with host := ⟨[op], 0, []⟩, turns := [.host] }

/-- V-LIF-2: STATUS shows BUSY while the command is pending. -/
theorem test_status_while_busy : (busyHost (.memRead 0)).statusWord = 0x1 := by decide

/-- V-LIF-3: a second CMD write is ignored. -/
theorem test_cmd_write_while_busy :
    (match step (busyHost (.regWrite 0x04 4 0x01)) with | .next t => some (t.cmd, t.pending) | _ => none)
      = some (0x02, some 0x02) := by decide

/-- V-LIF-7: a misaligned and a reserved read return 0. -/
theorem test_odd_reads :
    (buffer [1]).hostRegValue 0x15 4 = 0 ∧ (buffer [1]).hostRegValue 0x58 4 = 0 ∧ (buffer [1]).hostRegValue 0x14 2 = 0 := by
  decide

/-- V-LIF-8: a write to a read-only register is ignored. -/
theorem test_read_only_writes : (buffer [1]).hostRegWrite 0x2C 4 9 = buffer [1] := by decide

/-- A host write into IN while the command runs disturbs it; one elsewhere does not (70_reset R267). -/
theorem test_disturb :
    (State.hostMemWrite (busyHost (.memRead 0)) 0x10 0).disturbed = true
      ∧ (State.hostMemWrite (busyHost (.memRead 0)) 0x11 0).disturbed = false := by decide

/-- 30_encoding R90: `poll` is a branch to itself on BUSY; a label takes no room. -/
theorem test_assemble :
    assemble [.label 5, .run (.plain .curOpen), .bz .status 8 5]
      = some [.regWrite 0x04 4 0x01, .branch false 0x08 1 1, .branch true 0x08 8 0] := by decide

theorem test_assemble_undefined_label : assemble [.bz .status 8 5] = none := by decide

/-- 20_memory R55: a wider write is its bytes, low byte first, ascending. -/
theorem test_wide_write : wideMemWrite 0x20 2 0x1234 = [.memWrite 0x20 0x34, .memWrite 0x21 0x12] := by decide

/-! ## Witnesses: for every statement with hypotheses, states and operands that meet them, clause by clause -/

/-- Shows that all three region and overlap checks of IN and OUT pass. -/
theorem inOutReady_of {s : State} (a : s.Fits .inp) (b : s.Fits .out) (c : s.ClearOf .inp) : s.InOutReady := ⟨a, b, c⟩

/-- Shows that all five region and overlap checks of IN, AUX and OUT pass. -/
theorem inAuxOutReady_of {s : State} (a : s.Fits .inp) (b : s.Fits .aux) (c : s.Fits .out) (d : s.ClearOf .inp)
    (e : s.ClearOf .aux) : s.InAuxOutReady := ⟨a, b, c, d, e⟩

/-- EveryCommandDecodesFromItsEncoding. -/
theorem witness_wellFormed : (Instr.xorCsum 255).wellFormed = true ∧ (Instr.exportTape).wellFormed = true := by decide

/-- ADecodedWordIsItsCommandsEncoding. -/
theorem witness_decoded_word : decode 0x00000110 = .ok (.blkDecode true) := by decide

/-- AWordDecodesExactlyWhenATableRowAcceptsIt: a word that decodes and its row. -/
theorem witness_row_accepts :
    decode 0x0000FF11 = .ok (.blkEncode 0xFF) ∧ ∃ r ∈ opcodeTable, 0x0000FF11#32 &&& r.mask = r.pattern := by decide

/-- UnmatchedWordsRaiseIllegalCommand: with the schedule empty, and with the engine's turn next. -/
theorem witness_unmatched_word :
    (State.reset.accept 0x13).pending = some 0x13 ∧ (∀ r ∈ opcodeTable, 0x13#32 &&& r.mask ≠ r.pattern)
      ∧ (State.reset.accept 0x13).turns = [] ∧ (State.reset.issued 0x13).turns = .engine :: []
      ∧ (State.reset.issued 0x13).pending = some 0x13 := by decide

/-- StepRunsTheDecodedCommand: with the schedule empty, and with the engine's turn next. -/
theorem witness_step_runs :
    (State.reset.accept 0x60).pending = some 0x60 ∧ decode 0x60 = .ok .exportTape
      ∧ (Instr.exportTape).wellFormed = true ∧ (State.reset.accept 0x60).turns = []
      ∧ (State.reset.issued 0x60).turns = .engine :: [] ∧ (State.reset.issued 0x60).pending = some 0x60 := by decide

/-- EveryStepKeepsTheInvariant: a machine with input bytes and a pending command meets the invariant and steps. -/
theorem witness_invariant_step : ((buffer [0x7F]).accept 0x02).Inv ∧ ∃ t, step ((buffer [0x7F]).accept 0x02) = .next t :=
  ⟨⟨by decide, by decide, by decide, by decide, by decide, by decide,
    fun _ h => (Option.some.inj h), by decide, by decide, by decide⟩, _, rfl⟩

/-- ResetMeetsTheInvariant: both ends of the range of MEM_SIZE. -/
theorem witness_legal_sizes : Config.legalMemSize 1 ∧ Config.legalMemSize (2 ^ 32) := by decide

/-- CommandsWriteOnlyInsideOut: a command that uses OUT, with the addresses next to it; and one that does not. -/
theorem witness_write_inside_out :
    (∃ t, exec (.blkEncode 0) (buffer [1]) = .next t)
      ∧ (0x3FF < (buffer [1]).outBase.toNat
        ∧ (buffer [1]).outBase.toNat + (buffer [1]).outLen.toNat ≤ 0x500)
      ∧ (∃ t, exec (.xorCsum 0) (buffer [1]) = .next t) ∧ (Instr.xorCsum 0).uses .out = false :=
  ⟨⟨_, rfl⟩, by decide, ⟨_, rfl⟩, rfl⟩

/-- InputRegionsAreNeverWritten: the first and the last byte of IN, and of AUX. -/
theorem witness_input_regions :
    (∃ t, exec .tapEncode (buffers [1, 2] [3, 4]) = .next t)
      ∧ (Instr.tapEncode).uses .inp = true ∧ (Instr.tapEncode).uses .aux = true
      ∧ (∀ a ∈ [0x10, 0x11], (buffers [1, 2] [3, 4]).base .inp ≤ a
        ∧ a < (buffers [1, 2] [3, 4]).base .inp + (buffers [1, 2] [3, 4]).len .inp)
      ∧ ∀ a ∈ [0x200, 0x201], (buffers [1, 2] [3, 4]).base .aux ≤ a
        ∧ a < (buffers [1, 2] [3, 4]).base .aux + (buffers [1, 2] [3, 4]).len .aux :=
  ⟨⟨_, rfl⟩, rfl, rfl, by decide, by decide⟩

/-- CommandsReadOnlyTheirInputRegions: another memory that differs just outside IN. -/
theorem witness_other_memory :
    (∀ r a, (Instr.curReadU8).uses r = true → r ≠ .out → (buffer [5]).base r ≤ a →
        a < (buffer [5]).base r + (buffer [5]).len r →
        ((buffer [5]).mem.write 0x11 9).read? a = (buffer [5]).mem.read? a)
      ∧ ((buffer [5]).mem.write 0x11 9).read? 0x11 ≠ (buffer [5]).mem.read? 0x11
      ∧ ∃ t, exec .curReadU8 (buffer [5]) = .next t := by
  refine ⟨fun r a hu hr h1 h2 => ?_, by decide, _, rfl⟩
  cases r with
  | inp =>
    have ha : a = 0x10 := by
      have e1 : (buffer [5]).base .inp = 0x10 := by decide
      have e2 : (buffer [5]).len .inp = 1 := by decide
      omega
    subst ha; decide
  | aux => exact absurd hu (by decide)
  | out => exact absurd rfl hr

/-- RegionReadsGiveTheBytesOfMem: the first and the last byte of IN and of AUX. -/
theorem witness_region_reads :
    (buffers [1, 2] [3, 4]).disturbed = false ∧ (0 < 2 ∧ 1 < 2)
      ∧ (buffers [1, 2] [3, 4]).mem.read? ((buffers [1, 2] [3, 4]).inBase.toNat + 0 + 0) = some 1
      ∧ (buffers [1, 2] [3, 4]).mem.read? ((buffers [1, 2] [3, 4]).inBase.toNat + 0 + 1) = some 2
      ∧ (buffers [1, 2] [3, 4]).mem.read? ((buffers [1, 2] [3, 4]).auxBase.toNat + 0 + 0) = some 3
      ∧ (buffers [1, 2] [3, 4]).mem.read? ((buffers [1, 2] [3, 4]).auxBase.toNat + 0 + 1) = some 4 := by
  decide

/-- UnusedRegionRegistersAreIgnored: a command that uses no region, and one that uses only IN. -/
theorem witness_unused_regions :
    (∃ t, exec .attrPack State.reset = .next t) ∧ (Instr.attrPack).uses .inp = false
      ∧ (Instr.attrPack).uses .aux = false ∧ (Instr.attrPack).uses .out = false ∧ Instr.attrPack ≠ .curAtEnd
      ∧ (∃ t, exec .layout (buffer [0]) = .next t) ∧ (Instr.layout).uses .aux = false
      ∧ (Instr.layout).uses .out = false :=
  ⟨⟨_, rfl⟩, rfl, rfl, rfl, by decide, ⟨_, rfl⟩, rfl, rfl⟩

/-- OnlyCursorCommandsMoveTheCursor: moving back, and moving on to IN_LEN. -/
theorem witness_cursor_moves :
    (∃ t, exec .curOpen { buffer [5] with cur := 7 } = .next t ∧ t.cur ≠ 7)
      ∧ ∃ t, exec .curReadU8 (buffer [5]) = .next t ∧ t.cur ≠ (buffer [5]).cur ∧ t.cur = (buffer [5]).inLen :=
  ⟨⟨_, rfl, by decide⟩, _, rfl, by decide, by decide⟩

/-- The region and overlap clauses of every command that uses IN and OUT: each bound passed by exactly one byte. -/
theorem witness_in_out_checks :
    (¬ { buffer [1] with inBase := 0x10000 }.Fits .inp)
      ∧ ({ buffer [1] with outBase := 0xFF01 }.Fits .inp ∧ ¬ { buffer [1] with outBase := 0xFF01 }.Fits .out)
      ∧ ({ buffer [1, 2] with outBase := 0x11 }.Fits .inp ∧ { buffer [1, 2] with outBase := 0x11 }.Fits .out
        ∧ ¬ { buffer [1, 2] with outBase := 0x11 }.ClearOf .inp)
      ∧ { buffer [1, 2] with outBase := 0x12 }.ClearOf .inp
      ∧ { buffer [1] with outBase := 0xFF00 }.Fits .out ∧ { buffer [1] with inBase := 0xFFFF }.Fits .inp
      ∧ { buffer [1] with inBase := 0x10000 }.disturbed = false ∧ { buffer [1] with outBase := 0xFF01 }.disturbed = false
      ∧ { buffer [1, 2] with outBase := 0x11 }.disturbed = false := by
  decide

/-- The region and overlap clauses of every command that uses IN, AUX and OUT. -/
theorem witness_in_aux_out_checks :
    (¬ { buffers [1] [2] with inBase := 0x10000 }.Fits .inp)
      ∧ ({ buffers [1] [2] with auxBase := 0x10000 }.Fits .inp ∧ ¬ { buffers [1] [2] with auxBase := 0x10000 }.Fits .aux)
      ∧ ({ buffers [1] [2] with outBase := 0xFF01 }.Fits .inp ∧ { buffers [1] [2] with outBase := 0xFF01 }.Fits .aux
        ∧ ¬ { buffers [1] [2] with outBase := 0xFF01 }.Fits .out)
      ∧ ({ buffers [1] [2] with outBase := 0x10 }.Fits .inp ∧ { buffers [1] [2] with outBase := 0x10 }.Fits .aux
        ∧ { buffers [1] [2] with outBase := 0x10 }.Fits .out ∧ ¬ { buffers [1] [2] with outBase := 0x10 }.ClearOf .inp)
      ∧ ({ buffers [1] [2] with outBase := 0x200 }.Fits .inp ∧ { buffers [1] [2] with outBase := 0x200 }.Fits .aux
        ∧ { buffers [1] [2] with outBase := 0x200 }.Fits .out ∧ { buffers [1] [2] with outBase := 0x200 }.ClearOf .inp
        ∧ ¬ { buffers [1] [2] with outBase := 0x200 }.ClearOf .aux)
      ∧ { buffers [1] [2] with inBase := 0x10000 }.disturbed = false
      ∧ { buffers [1] [2] with auxBase := 0x10000 }.disturbed = false
      ∧ { buffers [1] [2] with outBase := 0xFF01 }.disturbed = false
      ∧ { buffers [1] [2] with outBase := 0x10 }.disturbed = false
      ∧ { buffers [1] [2] with outBase := 0x200 }.disturbed = false := by
  decide

/-- The other hypotheses of every command statement: an undisturbed state (CUR_OPEN, CUR_AT_END, XOR_CSUM, ATTR_UNPACK and
ATTR_PACK ask for no more), with IN and OUT, or all three regions, in order. -/
theorem witness_ready :
    (buffer [1]).disturbed = false ∧ (buffer [1]).InOutReady ∧ (buffers [1] [2]).disturbed = false
      ∧ (buffers [1] [2]).InAuxOutReady :=
  ⟨rfl, inOutReady_of (by decide) (by decide) (by decide), rfl,
    inAuxOutReady_of (by decide) (by decide) (by decide) (by decide) (by decide)⟩

/-- CurReadU8ReadsTheByteAtTheCursor: the last byte, and one past it. -/
theorem witness_CUR_READ_U8 :
    ({ buffer [1, 2] with cur := 1 }.disturbed = false ∧ { buffer [1, 2] with cur := 1 }.Fits .inp
        ∧ { buffer [1, 2] with cur := 1 }.cur.toNat < { buffer [1, 2] with cur := 1 }.inLen.toNat)
      ∧ { buffer [1, 2] with cur := 2 }.disturbed = false ∧ { buffer [1, 2] with cur := 2 }.Fits .inp
        ∧ { buffer [1, 2] with cur := 2 }.inLen.toNat ≤ { buffer [1, 2] with cur := 2 }.cur.toNat := by
  decide

/-- CurReadU16leReadsTwoBytesLowFirst: the last two bytes, and one byte fewer. -/
theorem witness_CUR_READ_U16LE :
    ({ buffer [1, 2, 3] with cur := 1 }.disturbed = false ∧ { buffer [1, 2, 3] with cur := 1 }.Fits .inp
        ∧ { buffer [1, 2, 3] with cur := 1 }.cur.toNat + 2 ≤ { buffer [1, 2, 3] with cur := 1 }.inLen.toNat)
      ∧ { buffer [1, 2, 3] with cur := 2 }.disturbed = false ∧ { buffer [1, 2, 3] with cur := 2 }.Fits .inp
        ∧ { buffer [1, 2, 3] with cur := 2 }.inLen.toNat < { buffer [1, 2, 3] with cur := 2 }.cur.toNat + 2 := by
  decide

/-- CurReadBytesCopiesToOut: one byte too many, OUT one byte too short, and both exactly enough. -/
theorem witness_CUR_READ_BYTES :
    (∀ s ∈ [{ buffer [1, 2, 3] with cur := 1, arg0 := 3 }, { buffer [1, 2, 3] with cur := 1, arg0 := 2, outLen := 1 },
        { buffer [1, 2, 3] with cur := 1, arg0 := 2, outLen := 2 }],
      s.disturbed = false ∧ s.Fits .inp ∧ s.Fits .out ∧ s.ClearOf .inp)
      ∧ (∀ s ∈ [{ buffer [1, 2, 3] with cur := 1, arg0 := 3 }], s.inLen.toNat - s.cur.toNat < s.arg0.toNat)
      ∧ (∀ s ∈ [{ buffer [1, 2, 3] with cur := 1, arg0 := 2, outLen := 1 }],
        s.arg0.toNat ≤ s.inLen.toNat - s.cur.toNat ∧ s.outLen.toNat < s.arg0.toNat)
      ∧ ∀ s ∈ [{ buffer [1, 2, 3] with cur := 1, arg0 := 2, outLen := 2 }],
        s.arg0.toNat ≤ s.inLen.toNat - s.cur.toNat ∧ s.arg0.toNat ≤ s.outLen.toNat := by
  decide

/-- The block that stands at the start of IN: its L, whether its checksums agree, and what remains there. -/
abbrev StartsWithBlock (s : State) (L : Nat) (ok : Bool) (avail : Nat) : Prop :=
  s.disturbed = false ∧ s.Fits .inp ∧ s.Fits .out ∧ s.ClearOf .inp ∧ s.cur.toNat = 0 ∧ avail = s.inLen.toNat - 0
    ∧ L = (s.inByte 0).toNat + 256 * (s.inByte 1).toNat
    ∧ ok = decide ((s.inBytes 3 (L - 1)).foldl (fun x b => x ^^^ b) (s.inByte 2) = s.inByte (2 + L))

/-- BlkDecodeDecodesTheBlockAtTheCursor: one byte remains; an empty block; a block one byte short; a complete one whose
checksum differs; and a good one with OUT one byte short and exactly long enough. -/
theorem witness_BLK_DECODE :
    StartsWithBlock { buffer [2, 0, 0xFF, 0xAA, 0x55] with inLen := 1 } 2 true 1
      ∧ StartsWithBlock (buffer [0, 0, 5]) 0 true 3
      ∧ StartsWithBlock { buffer [2, 0, 0xFF, 0xAA, 0x55] with inLen := 4 } 2 true (2 + 2)
      ∧ StartsWithBlock (buffer [2, 0, 0xFF, 0xAA, 0x54]) 2 false (2 + 3)
      ∧ StartsWithBlock { buffer [2, 0, 0xFF, 0xAA, 0x55] with outLen := 0 } 2 true (2 + 3)
      ∧ (0#32).toNat < 2 - 1
      ∧ StartsWithBlock { buffer [2, 0, 0xFF, 0xAA, 0x55] with outLen := 1 } 2 true (2 + 3)
      ∧ 2 - 1 ≤ (1#32).toNat :=
  ⟨by decide, by decide, by decide, by decide, by decide, by decide, by decide, by decide⟩

/-- BlkEncodeFramesTheInRegion: a payload one byte too long, OUT one byte short, and exactly long enough. -/
theorem witness_BLK_ENCODE :
    (∀ s ∈ [{ buffer [] with inBase := 0, inLen := 65535, outBase := 0xFFFF, outLen := 1 },
        { buffer [1] with outLen := 4 }, { buffer [1] with outLen := 5 }],
      s.disturbed = false ∧ s.Fits .inp ∧ s.Fits .out ∧ s.ClearOf .inp)
      ∧ 65534 < { buffer [] with inLen := 65535 }.inLen.toNat
      ∧ { buffer [1] with outLen := 4 }.inLen.toNat ≤ 65534
      ∧ { buffer [1] with outLen := 4 }.outLen.toNat < { buffer [1] with outLen := 4 }.inLen.toNat + 4
      ∧ { buffer [1] with outLen := 5 }.inLen.toNat + 4 ≤ { buffer [1] with outLen := 5 }.outLen.toNat := by
  decide

/-- FramingLaws: a reordered payload, and a byte changed at the first and the last protected place. -/
theorem witness_framing :
    [1#8, 2].Perm [2, 1] ∧ [1#8, 2].length ≤ 65534 ∧ 0 < [1#8, 2].length + 2 ∧ 3 < [1#8, 2].length + 2
      ∧ (frame 0xFF [1, 2])[2 + 0]? ≠ some 0xFE ∧ (frame 0xFF [1, 2])[2 + 3]? ≠ some 0xFE := by
  decide

/-- TrimLenDropsTheTrailingTrimBytes: each kind of trailing byte, and the last byte kept. -/
theorem witness_TRIM :
    trimLen [0x41, 0x21, 0x20, 0x7F] ≤ 2 ∧ [0x41#8, 0x21, 0x20, 0x7F][2]? = some 0x20
      ∧ trimLen [0x41, 0x21, 0x20, 0x7F] = 1 + 1 ∧ [0x41#8, 0x21, 0x20, 0x7F][1]? = some 0x21 := by
  decide

/-- Seventeen header bytes: type 3, the name `AB`, three fields. -/
def headerBytes : List Byte := headerPayload 3 [0x41, 0x42] 0x201 0xFFFF 0

/-- HdrDecodeReadsTheHeaderFields: one byte too few and too many, OUT one byte short, and exactly long enough. -/
theorem witness_HDR_DECODE :
    (∀ s ∈ [{ buffer headerBytes with inLen := 16 }, { buffer headerBytes with inLen := 18 },
        { buffer headerBytes with outLen := 9 }, { buffer headerBytes with outLen := 10 }],
      s.disturbed = false ∧ s.Fits .inp ∧ s.Fits .out ∧ s.ClearOf .inp)
      ∧ { buffer headerBytes with inLen := 16 }.inLen.toNat ≠ 17 ∧ { buffer headerBytes with inLen := 18 }.inLen.toNat ≠ 17
      ∧ { buffer headerBytes with outLen := 9 }.inLen.toNat = 17
      ∧ { buffer headerBytes with outLen := 9 }.outLen.toNat < 10
      ∧ { buffer headerBytes with outLen := 10 }.inLen.toNat = 17
      ∧ 10 ≤ { buffer headerBytes with outLen := 10 }.outLen.toNat := by
  decide

/-- HdrEncodeBuildsTheHeader: OUT one byte short, and exactly long enough. -/
theorem witness_HDR_ENCODE :
    (∀ s ∈ [{ buffer [0x41] with outLen := 16 }, { buffer [0x41] with outLen := 17 }],
      s.disturbed = false ∧ s.Fits .inp ∧ s.Fits .out ∧ s.ClearOf .inp)
      ∧ { buffer [0x41] with outLen := 16 }.outLen.toNat < 17 ∧ 17 ≤ { buffer [0x41] with outLen := 17 }.outLen.toNat := by
  decide

/-- HeaderDecodeInvertsHeaderPayload: a header that HDR_ENCODE would build, and its name. -/
theorem witness_header_inverse :
    (buffer headerBytes).disturbed = false ∧ (buffer headerBytes).InOutReady ∧ 10 ≤ (buffer headerBytes).outLen.toNat
      ∧ (0x201 < 65536 ∧ 0xFFFF < 65536 ∧ 0 < 65536) ∧ (buffer headerBytes).inAll = headerPayload 3 [0x41, 0x42] 0x201 0xFFFF 0
      ∧ [0x41#8, 0x42].length ≤ 10 ∧ trimLen [0x41, 0x42] = [0x41#8, 0x42].length :=
  ⟨rfl, inOutReady_of (by decide) (by decide) (by decide), by decide, by decide, by decide, by decide, by decide⟩

/-- A container with an empty block between two good ones. -/
def goodBlocks : List (Option (Byte × List Byte × Byte)) := [some (0x00, [1], 1), none, some (0xFF, [], 0xFF)]

/-- The lengths and checksums of a list of stored blocks, as ContainerParseFindsEveryBlock asks for them. -/
theorem stored_lengths (bs : List (Option (Byte × List Byte × Byte)))
    (h : ∀ b ∈ bs, b.all (fun f => decide (f.2.1.length ≤ 65534)) = true) :
    ∀ flag payload csum, some (flag, payload, csum) ∈ bs → payload.length ≤ 65534 := by
  intro flag payload csum hm
  simpa using h _ hm

/-- ContainerParseFindsEveryBlock: good blocks with VERIFY, a bad one without, a length field and a body cut short by one byte
(the body at the least L, and at a larger one), and a bad block with VERIFY. -/
theorem witness_container :
    (∀ flag payload csum, some (flag, payload, csum) ∈ goodBlocks → payload.length ≤ 65534)
      ∧ (∀ b ∈ goodBlocks, checksumAgrees b = true)
      ∧ (∀ flag payload csum, some (flag, payload, csum) ∈ [some (0x00#8, [1#8], 2#8)] → payload.length ≤ 65534)
      ∧ ((false = true) → ∀ b ∈ [some (0x00#8, [1#8], 2#8)], checksumAgrees b = true)
      ∧ ((1#8).toNat + 256 * (0#8).toNat ≠ 0 ∧ [5#8].length < (1#8).toNat + 256 * (0#8).toNat + 1)
      ∧ ((0#8).toNat + 256 * (1#8).toNat ≠ 0 ∧ (List.replicate 256 5#8).length < (0#8).toNat + 256 * (1#8).toNat + 1)
      ∧ [1#8].length ≤ 65534 ∧ [1#8].foldl (fun x b => x ^^^ b) 0x00#8 ≠ 2#8 :=
  ⟨stored_lengths _ (by decide), by decide, stored_lengths _ (by decide), by decide, by decide,
    by rw [List.length_replicate]; decide, by decide, by decide⟩

/-- BlockTableLayout: the last entry of a two-block table, and its payload's offset. -/
theorem witness_block_table :
    2 = [emptyBlock, blockAt [2, 0, 0xFF, 0xAA, 0x55] 0 2].length
      ∧ [emptyBlock, blockAt [2, 0, 0xFF, 0xAA, 0x55] 0 2][1]? = some (blockAt [2, 0, 0xFF, 0xAA, 0x55] 0 2)
      ∧ 28 = 4 + 12 * 2 + (([emptyBlock, blockAt [2, 0, 0xFF, 0xAA, 0x55] 0 2].take 1).map (fun c => c.payload.length)).sum :=
  ⟨rfl, rfl, rfl⟩

/-- TapDecodeWritesTheBlockTable: a byte left over, OUT one byte short, and exactly long enough. -/
theorem witness_TAP_DECODE :
    (∀ s ∈ [buffer [0, 0, 1], { buffer [0, 0] with outLen := 15 }, { buffer [0, 0] with outLen := 16 }],
      s.disturbed = false ∧ s.Fits .inp ∧ s.Fits .out ∧ s.ClearOf .inp)
      ∧ containerParse ((buffer [0, 0, 1]).inBytes 0 (buffer [0, 0, 1]).inLen.toNat) true = .error (.outOfBounds 2)
      ∧ containerParse ((buffer [0, 0]).inBytes 0 (buffer [0, 0]).inLen.toNat) true = .ok [emptyBlock]
      ∧ { buffer [0, 0] with outLen := 15 }.outLen.toNat < (blockTable [emptyBlock]).length
      ∧ (blockTable [emptyBlock]).length ≤ { buffer [0, 0] with outLen := 16 }.outLen.toNat := by
  decide

/-- TapDecodeWritesTheBlockTable: a checksum that differs, with VERIFY. -/
theorem witness_TAP_DECODE_mismatch :
    (buffer [0, 0, 1, 0, 5, 6]).disturbed = false ∧ (buffer [0, 0, 1, 0, 5, 6]).InOutReady
      ∧ containerParse ((buffer [0, 0, 1, 0, 5, 6]).inBytes 0 (buffer [0, 0, 1, 0, 5, 6]).inLen.toNat) true
        = .error (.checksumMismatch 2) :=
  ⟨rfl, inOutReady_of (by decide) (by decide) (by decide), by decide⟩

/-- TapEncodeFramesHeaderAndData: a header and a data payload one byte too long, OUT one byte short, and exactly long
enough. -/
theorem witness_TAP_ENCODE :
    (∀ s ∈ [{ buffers [] [] with inBase := 0, inLen := 65535, outLen := 0 },
        { buffers [1] [] with auxBase := 0, auxLen := 65535, outLen := 0 },
        { buffers [1] [2] with outLen := 9 }, { buffers [1] [2] with outLen := 10 }],
      s.disturbed = false ∧ s.Fits .inp ∧ s.Fits .aux ∧ s.Fits .out ∧ s.ClearOf .inp ∧ s.ClearOf .aux)
      ∧ 65534 < { buffers [] [] with inLen := 65535 }.inLen.toNat
      ∧ { buffers [1] [] with auxLen := 65535 }.inLen.toNat ≤ 65534
      ∧ 65534 < { buffers [1] [] with auxLen := 65535 }.auxLen.toNat
      ∧ (buffers [1] [2]).inLen.toNat ≤ 65534 ∧ (buffers [1] [2]).auxLen.toNat ≤ 65534
      ∧ { buffers [1] [2] with outLen := 9 }.outLen.toNat
        < (buffers [1] [2]).inLen.toNat + (buffers [1] [2]).auxLen.toNat + 8
      ∧ (buffers [1] [2]).inLen.toNat + (buffers [1] [2]).auxLen.toNat + 8
        ≤ { buffers [1] [2] with outLen := 10 }.outLen.toNat := by
  decide

/-- The 1×1 sprite of W1. -/
def entryOne : Entry := { w := 1, h := 1, pixels := List.replicate 64 0, attrs := [0x38] }

/-- That sprite is valid. -/
theorem entryOne_valid : entryOne.Valid :=
  ⟨by decide, by decide, by decide, fun p h => .inl (List.eq_of_mem_replicate h), by decide⟩

/-- PackedRecordLayout: the first and the last pixel byte and attribute of a 1×1 record. -/
theorem witness_packed_record :
    1 = entryOne.w.toNat ∧ 1 = entryOne.h.toNat ∧ 0 < 8 * 1 ∧ 7 < 8 * 1 ∧ 0 < 1 := by decide

/-- ChainLinksEachRecordToTheNext: a chain that fits, with a record of it, and one whose second record stands one past
0xFFFF. -/
theorem witness_chain :
    (∃ out, chain [entryOne, entryOne] 0xFFF1 = .ok out) ∧ [entryOne, entryOne][1]? = some entryOne
      ∧ ∃ err, chain [entryOne, entryOne] 0xFFF2 = .error err :=
  ⟨⟨_, rfl⟩, rfl, _, rfl⟩

/-- UsfParsingFindsTheEntriesOrTheFirstBadOne: complete entries; one entry more promised, of which one byte, a zero width, or
all bytes but one are there. -/
theorem witness_usf :
    (∀ e ∈ [entryOne], e.w ≠ 0 ∧ e.h ≠ 0 ∧ e.pixels.length = 64 * e.w.toNat * e.h.toNat
        ∧ e.attrs.length = e.w.toNat * e.h.toNat)
      ∧ [entryOne].length = (1#8).toNat ∧ [entryOne].length < (2#8).toNat
      ∧ [1#8].length < 2 ∧ [0#8, 1] = 0 :: 1 :: []
      ∧ (1#8 :: 1 :: List.replicate 64 0).length < 2 + 65 * (1#8).toNat * (1#8).toNat := by
  decide

/-- UnpackingInvertsPacking: a chain of a valid sprite. -/
theorem witness_unpacking :
    (∀ e ∈ [entryOne], e.Valid) ∧ [entryOne].length = (1#8).toNat ∧ ∃ packed, chain [entryOne] 56561 = .ok packed :=
  ⟨fun e h => by rw [List.mem_singleton.mp h]; exact entryOne_valid, by decide, _, rfl⟩

/-- PackedScanStopsForTheFirstReason: records with ids out of order and stray next addresses, and a tail for each reason but
LIMIT. -/
theorem witness_scan :
    (∀ r ∈ [(9, 0xFFFF, entryOne), (255, 7, entryOne)], r.1 % 256 ≠ 0 ∧ r.2.2.Valid)
      ∧ [(9, 0xFFFF, entryOne), (255, 7, entryOne)].length ≤ 255
      ∧ [0#8].head? = some 0
      ∧ (([1#8, 0, 0, 1] : List Byte).head? = some 1 ∧ ([1#8, 0, 0, 1] : List Byte).length < 5)
      ∧ [1#8, 0, 0, 0, 1] = 1 :: 0 :: 0 :: 0 :: 1 :: []
      ∧ (1#8 :: 0 :: 0 :: 1 :: 1 :: List.replicate 8 0).length < 5 + 9 * (1#8).toNat * (1#8).toNat := by
  refine ⟨fun r h => ?_, by decide, by decide, by decide, rfl, by decide⟩
  rcases List.mem_cons.mp h with rfl | h
  · exact ⟨by decide, entryOne_valid⟩
  · rw [List.mem_singleton.mp h]
    exact ⟨by decide, entryOne_valid⟩

/-- PackedScanStopsForTheFirstReason, LIMIT: 255 records, and a complete record after them. -/
theorem witness_scan_limit :
    (∀ r ∈ List.replicate 255 (1, 0, entryOne), r.1 % 256 ≠ 0 ∧ r.2.2.Valid)
      ∧ (List.replicate 255 (1, 0, entryOne)).length ≤ 255
      ∧ ((List.replicate 255 (1, 0, entryOne)).map (fun r => r.2.2)).length = 255
      ∧ 5 + 9 * (1#8).toNat * (1#8).toNat ≤ (1#8 :: 0 :: 0 :: 1 :: 1 :: List.replicate 9 0).length :=
  ⟨fun r h => by rw [List.eq_of_mem_replicate h]; exact ⟨by decide, entryOne_valid⟩,
    by rw [List.length_replicate], by rw [List.length_map, List.length_replicate], by decide⟩

/-- SprUnpackWritesTheUsfImage: OUT one byte short, and exactly long enough. -/
theorem witness_SPR_UNPACK :
    (∀ s ∈ [{ buffer packedOne with outLen := 67 }, { buffer packedOne with outLen := 68 }],
      s.disturbed = false ∧ s.Fits .inp ∧ s.Fits .out ∧ s.ClearOf .inp)
      ∧ scanPacked ((buffer packedOne).inBytes 0 (buffer packedOne).inLen.toNat) = ⟨[entryOne], 14, .exhausted⟩
      ∧ (BitVec.ofNat 8 [entryOne].length :: [entryOne].flatMap (fun e => [e.w, e.h] ++ e.pixels ++ e.attrs)).length = 68
      ∧ { buffer packedOne with outLen := 67 }.outLen.toNat < 68
      ∧ 68 ≤ { buffer packedOne with outLen := 68 }.outLen.toNat := by
  decide +kernel

/-- Two 1×1 sprites as a USF image. -/
def usfTwo : List Byte := 2 :: entryOne.bytes ++ entryOne.bytes

/-- SprPackWritesTheChainedRecords: a bad image, a start one too high, a chain that passes 0xFFFF by one, OUT one byte short,
and exactly long enough. -/
theorem witness_SPR_PACK :
    (∀ s ∈ [buffer [], { buffer usfTwo with arg0 := 0x10000 }, { buffer usfTwo with arg0 := 0xFFF2 },
        { buffer usfTwo with arg0 := 0xFFF1, outLen := 27 }, { buffer usfTwo with arg0 := 0xFFF1, outLen := 28 }],
      s.disturbed = false ∧ s.Fits .inp ∧ s.Fits .out ∧ s.ClearOf .inp)
      ∧ parseUsf ((buffer []).inBytes 0 (buffer []).inLen.toNat) = .error (.outOfBounds 0)
      ∧ parseUsf ((buffer usfTwo).inBytes 0 (buffer usfTwo).inLen.toNat) = .ok [entryOne, entryOne]
      ∧ 0xFFFF < { buffer usfTwo with arg0 := 0x10000 }.arg0.toNat
      ∧ (0xFFF2#32).toNat ≤ 0xFFFF ∧ chain [entryOne, entryOne] (0xFFF2#32).toNat = .error (.encodingError 0x10000)
      ∧ (0xFFF1#32).toNat ≤ 0xFFFF
      ∧ chain [entryOne, entryOne] (0xFFF1#32).toNat
        = .ok ([1, 0xFF, 0xFF, 1, 1, 0, 0, 0, 0, 0, 0, 0, 0, 0x38] ++ [2, 0, 0, 1, 1, 0, 0, 0, 0, 0, 0, 0, 0, 0x38])
      ∧ { buffer usfTwo with arg0 := 0xFFF1, outLen := 27 }.outLen.toNat < 14 + 14
      ∧ 14 + 14 ≤ { buffer usfTwo with arg0 := 0xFFF1, outLen := 28 }.outLen.toNat := by
  decide +kernel

/-- AttrPackJoinsTheFields, its law: an ATTR_UNPACK and the ATTR_PACK of what it gives. -/
theorem witness_attr_law :
    State.reset.disturbed = false ∧ ∃ t, exec .attrUnpack State.reset = .next t
      ∧ ∃ u, exec .attrPack { t with arg0 := t.res0, arg1 := t.res1, arg2 := t.res2, arg3 := t.res3 } = .next u :=
  ⟨rfl, _, rfl, _, rfl⟩

/-- A sprite of w by h cells, all of it 0. -/
def flatEntry (w h : Byte) : Entry :=
  { w := w, h := h, pixels := List.replicate (64 * w.toNat * h.toNat) 0, attrs := List.replicate (w.toNat * h.toNat) 0 }

/-- Sprites whose records need 56576 bytes together, one more than END_ADDR allows. -/
def overCapacity : List Entry := [flatEntry 255 8, flatEntry 255 8, flatEntry 255 8, flatEntry 164 1]

/-- Sprites whose records need 56575 bytes together, exactly what END_ADDR allows. -/
def atCapacity : List Entry := [flatEntry 255 24, flatEntry 165 1]

/-- A machine with 1 MiB of MEM, the USF image of the sprites at 0, no AUX name, and OUT at 0x80000. -/
def bigBuffer (ents : List Entry) (outLen : Nat) : State :=
  { State.resetWith 0x100000 with
    mem := cellsFrom 0 (usfImage ents)
    inLen := BitVec.ofNat 32 (usfImage ents).length
    outBase := 0x80000
    outLen := BitVec.ofNat 32 outLen }

theorem flatEntry_length (w h : Byte) : (flatEntry w h).bytes.length = 2 + 65 * w.toNat * h.toNat :=
  Entry.bytes_length _ List.length_replicate List.length_replicate

theorem two_flat_length (w h w' h' : Byte) : (usfImage [flatEntry w h, flatEntry w' h']).length
    = 5 + 65 * w.toNat * h.toNat + 65 * w'.toNat * h'.toNat := by
  simp only [usfImage, List.flatMap_cons, List.flatMap_nil, List.length_append, flatEntry_length, List.length_cons,
    List.length_nil]
  omega

theorem four_flat_length (w h w' h' : Byte) :
    (usfImage [flatEntry w h, flatEntry w h, flatEntry w h, flatEntry w' h']).length
      = 9 + 3 * (65 * w.toNat * h.toNat) + 65 * w'.toNat * h'.toNat := by
  simp only [usfImage, List.flatMap_cons, List.flatMap_nil, List.length_append, flatEntry_length, List.length_cons,
    List.length_nil]
  omega

theorem overCapacity_length : (usfImage overCapacity).length = 408469 := (four_flat_length 255 8 164 1).trans rfl

theorem atCapacity_length : (usfImage atCapacity).length = 408530 := (two_flat_length 255 24 165 1).trans rfl

/-- What IN holds in such a machine. -/
theorem bigBuffer_inBytes (ents : List Entry) (outLen : Nat) (h : (usfImage ents).length < 2 ^ 32) :
    (bigBuffer ents outLen).inBytes 0 (bigBuffer ents outLen).inLen.toNat = usfImage ents := by
  have hn : (bigBuffer ents outLen).inLen.toNat = (usfImage ents).length := by
    show (BitVec.ofNat 32 (usfImage ents).length).toNat = _
    rw [BitVec.toNat_ofNat, Nat.mod_eq_of_lt h]
  rw [hn, State.inBytes, show (bigBuffer ents outLen).base .inp + 0 = 0 from rfl]
  refine List.ext_getElem? (fun k => ?_)
  by_cases hk : k < (usfImage ents).length
  · have hr : (bigBuffer ents outLen).mem.read? (0 + k) = some (usfImage ents)[k] := by
      rw [← List.getElem?_eq_getElem hk]
      exact cellsFrom_read?_inside (usfImage ents) 0 k hk
    rw [State.lookBytes_getElem? _ _ _ _ hk, State.look_written _ _ _ rfl hr, List.getElem?_eq_getElem hk]
  · rw [List.getElem?_eq_none (by rw [State.lookBytes_length]; omega), List.getElem?_eq_none (by omega)]

theorem flatEntry_cons (start more : List Byte) (w h : Byte) (n : Nat) (ents : List Entry) (hw : w ≠ 0) (hh : h ≠ 0)
    (hr : parseEntries (start ++ ((flatEntry w h).bytes ++ more)) n (start ++ (flatEntry w h).bytes).length = .ok ents) :
    parseEntries (start ++ ((flatEntry w h).bytes ++ more)) (n + 1) start.length = .ok (flatEntry w h :: ents) :=
  parseEntries_cons start more (flatEntry w h) n ents hw hh List.length_replicate List.length_replicate hr

theorem two_flat_parse (w h w' h' : Byte) (hw : w ≠ 0) (hh : h ≠ 0) (hw' : w' ≠ 0) (hh' : h' ≠ 0) :
    parseUsf (usfImage [flatEntry w h, flatEntry w' h']) = .ok [flatEntry w h, flatEntry w' h'] := by
  rw [parseUsf, if_neg (by simp [usfImage])]
  rw [show usfImage [flatEntry w h, flatEntry w' h'] = [2] ++ ((flatEntry w h).bytes ++ ((flatEntry w' h').bytes ++ []))
    by simp [usfImage]]
  refine flatEntry_cons [2] _ w h 1 _ hw hh ?_
  rw [← List.append_assoc]
  exact flatEntry_cons _ _ w' h' 0 _ hw' hh' rfl

theorem four_flat_parse (w h w' h' : Byte) (hw : w ≠ 0) (hh : h ≠ 0) (hw' : w' ≠ 0) (hh' : h' ≠ 0) :
    parseUsf (usfImage [flatEntry w h, flatEntry w h, flatEntry w h, flatEntry w' h'])
      = .ok [flatEntry w h, flatEntry w h, flatEntry w h, flatEntry w' h'] := by
  rw [parseUsf, if_neg (by simp [usfImage])]
  rw [show usfImage [flatEntry w h, flatEntry w h, flatEntry w h, flatEntry w' h']
      = [4] ++ ((flatEntry w h).bytes ++ ((flatEntry w h).bytes ++ ((flatEntry w h).bytes
        ++ ((flatEntry w' h').bytes ++ [])))) by simp [usfImage]]
  refine flatEntry_cons [4] _ w h 3 _ hw hh ?_
  rw [← List.append_assoc]
  refine flatEntry_cons _ _ w h 2 _ hw hh ?_
  rw [← List.append_assoc]
  refine flatEntry_cons _ _ w h 1 _ hw hh ?_
  rw [← List.append_assoc]
  exact flatEntry_cons _ _ w' h' 0 _ hw' hh' rfl

theorem overCapacity_parses : parseUsf (usfImage overCapacity) = .ok overCapacity :=
  four_flat_parse 255 8 164 1 (by decide) (by decide) (by decide) (by decide)

theorem atCapacity_parses : parseUsf (usfImage atCapacity) = .ok atCapacity :=
  two_flat_parse 255 24 165 1 (by decide) (by decide) (by decide) (by decide)

/-- Every region check passes in such a machine. -/
theorem bigBuffer_ready (ents : List Entry) (outLen : Nat) (h : (usfImage ents).length ≤ 0x80000) (ho : outLen ≤ 0x80000) :
    (bigBuffer ents outLen).InAuxOutReady := by
  have hn : (bigBuffer ents outLen).len .inp = (usfImage ents).length := by
    show (BitVec.ofNat 32 (usfImage ents).length).toNat = _
    rw [BitVec.toNat_ofNat, Nat.mod_eq_of_lt (by omega)]
  have hl : (bigBuffer ents outLen).len .out = outLen := by
    show (BitVec.ofNat 32 outLen).toNat = _
    rw [BitVec.toNat_ofNat, Nat.mod_eq_of_lt (by omega)]
  have hi : (bigBuffer ents outLen).base .inp = 0 := rfl
  have hb : (bigBuffer ents outLen).base .out = 0x80000 := rfl
  have hm : (bigBuffer ents outLen).memSize = 0x100000 := rfl
  have ha : (bigBuffer ents outLen).base .aux + (bigBuffer ents outLen).len .aux = 0 := rfl
  refine ⟨?_, ?_, ?_, ?_, .inr (.inl rfl)⟩
  · rw [State.Fits]; omega
  · rw [State.Fits]; omega
  · rw [State.Fits]; omega
  · rw [State.ClearOf]; omega

/-- LayoutComputesTotalAndStart: a bad image, a total of 56576, and a total of 56575. -/
theorem witness_LAYOUT :
    ((buffer []).disturbed = false ∧ (buffer []).Fits .inp
        ∧ parseUsf ((buffer []).inBytes 0 (buffer []).inLen.toNat) = .error (.outOfBounds 0))
      ∧ ((bigBuffer overCapacity 0).disturbed = false ∧ (bigBuffer overCapacity 0).Fits .inp
        ∧ parseUsf ((bigBuffer overCapacity 0).inBytes 0 (bigBuffer overCapacity 0).inLen.toNat) = .ok overCapacity
        ∧ (overCapacity.map (fun e => 5 + 9 * e.w.toNat * e.h.toNat)).sum = 56576)
      ∧ (bigBuffer atCapacity 0).disturbed = false ∧ (bigBuffer atCapacity 0).Fits .inp
        ∧ parseUsf ((bigBuffer atCapacity 0).inBytes 0 (bigBuffer atCapacity 0).inLen.toNat) = .ok atCapacity
        ∧ (atCapacity.map (fun e => 5 + 9 * e.w.toNat * e.h.toNat)).sum = 56575 :=
  ⟨by decide,
    ⟨rfl, (bigBuffer_ready _ _ (by rw [overCapacity_length]; decide) (by decide)).inFits,
      by rw [bigBuffer_inBytes _ _ (by rw [overCapacity_length]; decide)]; exact overCapacity_parses, rfl⟩,
    rfl, (bigBuffer_ready _ _ (by rw [atCapacity_length]; decide) (by decide)).inFits,
    by rw [bigBuffer_inBytes _ _ (by rw [atCapacity_length]; decide)]; exact atCapacity_parses, rfl⟩

/-- SprPackWritesTheChainedRecords, LayoutComputesTotalAndStart and ExportWritesTheTapeImage: the second kind of bad image, whose
entry has no width. -/
theorem witness_invalid_record :
    (buffers [1, 0, 1] []).disturbed = false ∧ (buffers [1, 0, 1] []).InOutReady ∧ (buffers [1, 0, 1] []).InAuxOutReady
      ∧ parseUsf ((buffers [1, 0, 1] []).inBytes 0 (buffers [1, 0, 1] []).inLen.toNat) = .error (.invalidRecord 1) :=
  ⟨rfl, inOutReady_of (by decide) (by decide) (by decide),
    inAuxOutReady_of (by decide) (by decide) (by decide) (by decide) (by decide), by decide⟩

/-- ExportNeverRaisesEncodingError: a collection at capacity, and an EXPORT that completes. -/
theorem witness_export_error :
    computeLayout atCapacity = .ok (56575, 0)
      ∧ ∃ t, exec .exportTape (buffers [0] []) = .next t ∧ (buffers [0] []).errcode ≠ 3 := by
  have h : totalBytes atCapacity = 56575 := rfl
  refine ⟨?_, _, rfl, by decide⟩
  rw [computeLayout, h]
  rfl

/-- ExportWritesTheTapeImage: a bad image, a total of 56576, and at a total of 56575 OUT one byte short and exactly long
enough. -/
theorem witness_EXPORT :
    ((buffers [] []).disturbed = false ∧ (buffers [] []).InAuxOutReady
        ∧ parseUsf ((buffers [] []).inBytes 0 (buffers [] []).inLen.toNat) = .error (.outOfBounds 0))
      ∧ ((bigBuffer overCapacity 0).disturbed = false ∧ (bigBuffer overCapacity 0).InAuxOutReady
        ∧ parseUsf ((bigBuffer overCapacity 0).inBytes 0 (bigBuffer overCapacity 0).inLen.toNat) = .ok overCapacity
        ∧ (overCapacity.map (fun e => 5 + 9 * e.w.toNat * e.h.toNat)).sum = 56576)
      ∧ (atCapacity.map (fun e => 5 + 9 * e.w.toNat * e.h.toNat)).sum = 56575
      ∧ ((bigBuffer atCapacity 56599).disturbed = false ∧ (bigBuffer atCapacity 56599).InAuxOutReady
        ∧ parseUsf ((bigBuffer atCapacity 56599).inBytes 0 (bigBuffer atCapacity 56599).inLen.toNat) = .ok atCapacity
        ∧ (bigBuffer atCapacity 56599).outLen.toNat < 56575 + 25)
      ∧ (bigBuffer atCapacity 56600).disturbed = false ∧ (bigBuffer atCapacity 56600).InAuxOutReady
        ∧ parseUsf ((bigBuffer atCapacity 56600).inBytes 0 (bigBuffer atCapacity 56600).inLen.toNat) = .ok atCapacity
        ∧ 56575 + 25 ≤ (bigBuffer atCapacity 56600).outLen.toNat :=
  ⟨⟨rfl, inAuxOutReady_of (by decide) (by decide) (by decide) (by decide) (by decide), by decide⟩,
    ⟨rfl, bigBuffer_ready _ _ (by rw [overCapacity_length]; decide) (by decide),
      by rw [bigBuffer_inBytes _ _ (by rw [overCapacity_length]; decide)]; exact overCapacity_parses, rfl⟩,
    rfl,
    ⟨rfl, bigBuffer_ready _ _ (by rw [atCapacity_length]; decide) (by decide),
      by rw [bigBuffer_inBytes _ _ (by rw [atCapacity_length]; decide)]; exact atCapacity_parses,
      by show (56599#32).toNat < _; decide⟩,
    rfl, bigBuffer_ready _ _ (by rw [atCapacity_length]; decide) (by decide),
    by rw [bigBuffer_inBytes _ _ (by rw [atCapacity_length]; decide)]; exact atCapacity_parses,
    by show _ ≤ (56600#32).toNat; decide⟩

/-- CommandWritesAreAcceptedOnlyWhileIdle: an idle machine and a busy one whose host writes CMD next. -/
theorem witness_accepted_write :
    { buffer [1] with host := ⟨[.regWrite 0x04 4 0x02], 0, []⟩, turns := [.host] }.turns = .host :: []
      ∧ { buffer [1] with host := ⟨[.regWrite 0x04 4 0x02], 0, []⟩, turns := [.host] }.pending = none
      ∧ { buffer [1] with host := ⟨[.regWrite 0x04 4 0x02], 0, []⟩, turns := [.host] }.host.prog[
        { buffer [1] with host := ⟨[.regWrite 0x04 4 0x02], 0, []⟩, turns := [.host] }.host.pc]?
        = some (.regWrite 0x04 4 0x02)
      ∧ (busyHost (.regWrite 0x04 4 0x01)).turns = .host :: [] ∧ (busyHost (.regWrite 0x04 4 0x01)).pending = some 0x02
      ∧ (busyHost (.regWrite 0x04 4 0x01)).host.prog[(busyHost (.regWrite 0x04 4 0x01)).host.pc]? = some (.regWrite 0x04 4 0x01) := by
  decide

/-- RegisterWritesWhileBusyAreIgnored: a busy machine whose host writes IN_BASE next. -/
theorem witness_write_while_busy :
    (busyHost (.regWrite 0x14 4 5)).turns = .host :: [] ∧ (busyHost (.regWrite 0x14 4 5)).pending = some 0x02
      ∧ (busyHost (.regWrite 0x14 4 5)).host.prog[(busyHost (.regWrite 0x14 4 5)).host.pc]? = some (.regWrite 0x14 4 5) := by
  decide

/-- WritableRegistersHoldWhatIsWritten. -/
theorem witness_writable : (buffer [1]).busy = false := by decide

/-- OtherRegisterAccessesDoNothing: a narrow, a misaligned and the first reserved access, and read-only registers. -/
theorem witness_other_accesses :
    ((2 : Nat) ≠ 4 ∧ 0x15 % 4 ≠ 0 ∧ 0x58 ≤ 0x58) ∧ 0x00 ∈ [0x00, 0x08, 0x0C, 0x10, 0x2C, 0x40, 0x44, 0x48, 0x4C, 0x50, 0x54]
      ∧ 0x54 ∈ [0x00, 0x08, 0x0C, 0x10, 0x2C, 0x40, 0x44, 0x48, 0x4C, 0x50, 0x54] := by
  decide

/-- RegisterReadsShowTheRegisters: RES0 to RES5 while idle. -/
theorem witness_register_reads : (buffer [1]).pending = none := rfl

/-- HostReadsChangeNothingOfTheFramer: a busy machine whose host reads RES0, reads MEM, or branches on STATUS next. -/
theorem witness_host_reads :
    (∀ op ∈ [HostOp.regRead 0x40 4, .memRead 0x10, .branch false 0x08 1 0], (busyHost op).turns = .host :: []
      ∧ (busyHost op).host.prog[(busyHost op).host.pc]? = some op) ∧ (busyHost (.regRead 0x40 4)).pending = some 0x02 := by
  decide

/-- HostWriteStepsPerformTheWrite: a register write, a MEM write, and the end of the host's program. -/
theorem witness_host_writes :
    (∀ op ∈ [HostOp.regWrite 0x14 4 5, .memWrite 0x11 5], (busyHost op).turns = .host :: []
      ∧ (busyHost op).host.prog[(busyHost op).host.pc]? = some op)
      ∧ { buffer [1] with turns := [.host] }.turns = .host :: []
      ∧ { buffer [1] with turns := [.host] }.host.prog[{ buffer [1] with turns := [.host] }.host.pc]? = none := by
  decide

/-- ResetSetsEveryRegister: reset comes while a command is in flight. -/
theorem witness_reset_turn :
    { (buffer [1]).accept 0x02 with turns := [.reset] }.turns = .reset :: []
      ∧ { (buffer [1]).accept 0x02 with turns := [.reset] }.pending = some 0x02 := by
  decide

/-- HostMemAccesses: the last address of MEM while idle, and the one after it; while a command with OUT at 0x400 to 0x4FF runs,
the bytes next to OUT, one of them known; and a command that commits a byte. -/
theorem witness_host_mem :
    (State.reset.pending = none ∧ 0xFFFF < State.reset.memSize ∧ State.reset.memSize ≤ 0x10000)
      ∧ (((buffer [1]).accept 0x11).pending = some 0x11 ∧ 0x500 < ((buffer [1]).accept 0x11).memSize
        ∧ ((buffer [1]).accept 0x11).OutsideRunningOut 0x3FF ∧ ((buffer [1]).accept 0x11).OutsideRunningOut 0x500
        ∧ ((buffer [1]).accept 0x11).OutsideRunningOut 0x10 ∧ ((buffer [1]).accept 0x11).mem.read? 0x10 = some 1)
      ∧ ∃ t out, exec (.blkEncode 0) (buffer []) = .next t ∧ (buffer []).WroteOut t.mem out ∧ out[3]? = some 0
        ∧ (buffer []).outBase.toNat + 3 < (buffer []).memSize := by
  have outside : ∀ a, a < 0x400 ∨ 0x400 + 0x100 ≤ a → ((buffer [1]).accept 0x11).OutsideRunningOut a := fun a h w i _ _ _ => h
  refine ⟨by decide, ⟨rfl, by decide, outside _ (by decide), outside _ (by decide), outside _ (by decide), by decide⟩,
    _, [1, 0, 0, 0], rfl, ?_, rfl, by decide⟩
  exact State.wroteOut_committed (buffer []) [1, 0, 0, 0]

/-- HostWritesDisturbTheRunningCommand: a running command with a one-byte IN, at its byte and just after it. -/
theorem witness_host_disturbs :
    (busyHost (.memWrite 0x10 1)).pending = some 0x02 ∧ decode 0x02 = .ok .curReadU8
      ∧ 0x10 < (busyHost (.memWrite 0x10 1)).memSize ∧ 0x11 < (busyHost (.memWrite 0x10 1)).memSize
      ∧ (busyHost (.memWrite 0x10 1)).disturbed = false ∧ (Instr.curReadU8).uses .inp = true
      ∧ (busyHost (.memWrite 0x10 1)).base .inp ≤ 0x10
      ∧ 0x10 < (busyHost (.memWrite 0x10 1)).base .inp + (busyHost (.memWrite 0x10 1)).len .inp := by
  decide

/-- DisturbedCommandsWriteFreeValues: a disturbed command that writes RES0 and RES1 and OUT bytes. -/
theorem witness_disturbed :
    { buffer [1] with disturbed := true }.disturbed = true
      ∧ ∃ t, exec (.blkEncode 0) { buffer [1] with disturbed := true } = .next t ∧ t.done = true :=
  ⟨rfl, _, rfl, rfl⟩

/-- TheOutcomeStaysUntilTheNextCommand: an idle machine after an error, whose host writes a register next. -/
theorem witness_outcome :
    ((buffer [1]).aborted 1 0).pending = none ∧ ((buffer [1]).aborted 1 0).turns.head? ≠ some .reset
      ∧ ∃ t, step { (buffer [1]).aborted 1 0 with host := ⟨[.regWrite 0x30 4 5], 0, []⟩ } = .next t ∧ t.pending = none
        ∧ t.arg0 = 5 :=
  ⟨rfl, by decide, _, rfl, rfl, rfl⟩

/-- TheSameCommandGivesTheSameErrorAgain: a header of the wrong length, every byte of IN written. -/
theorem witness_same_error :
    (buffer [1]).disturbed = false ∧ (buffer [1]).err = false
      ∧ (∀ r a, (Instr.hdrDecode).uses r = true → r ≠ .out → (buffer [1]).base r ≤ a →
        a < (buffer [1]).base r + (buffer [1]).len r → ((buffer [1]).mem.read? a).isSome = true)
      ∧ ∃ t, exec .hdrDecode (buffer [1]) = .next t ∧ t.err = true := by
  refine ⟨rfl, rfl, fun r a hu hr h1 h2 => ?_, _, rfl, rfl⟩
  cases r with
  | inp =>
    have ha : a = 0x10 := by
      have e1 : (buffer [1]).base .inp = 0x10 := by decide
      have e2 : (buffer [1]).len .inp = 1 := by decide
      omega
    subst ha; decide
  | aux => exact absurd hu (by decide)
  | out => exact absurd rfl hr

end Sys2Proof.Tests
end

section
/-! The scope's agents and regions (00_scope R10, R16): what a command reads of a region, and how a host step that writes
relates to the write itself. -/

namespace Sys2Proof.Machine

/-! ## What a command reads of a region -/

/-- A read of MEM gives each byte as it was last written, unless the command is disturbed. -/
theorem State.lookBytes_written (s : State) (a n k : Nat) (b : Byte) (hd : s.disturbed = false) (hk : k < n)
    (hb : s.mem.read? (a + k) = some b) : (s.lookBytes a n)[k]? = some b := by
  rw [State.lookBytes_getElem? s a n k hk, State.look_written s (a + k) b hd hb]

@[simp] theorem State.inBytes_length (s : State) (a n : Nat) : (s.inBytes a n).length = n :=
  s.lookBytes_length (s.base .inp + a) n

@[simp] theorem State.auxBytes_length (s : State) (a n : Nat) : (s.auxBytes a n).length = n :=
  s.lookBytes_length (s.base .aux + a) n

/-- `INB(a, n)` consists of the bytes `IN(a)` to `IN(a + n - 1)`. -/
theorem State.inBytes_getElem? (s : State) (a n k : Nat) (hk : k < n) : (s.inBytes a n)[k]? = some (s.inByte (a + k)) := by
  rw [State.inBytes, State.lookBytes_getElem? s _ n k hk, State.inByte, Nat.add_assoc]

/-- Settles O60: a region's bytes are reads of MEM from its base on, and an undisturbed read gives the byte last written. -/
theorem regionReadsGiveTheBytesOfMem : Obligations.RegionReadsGiveTheBytesOfMem := by
  intro s
  refine ⟨rfl, rfl, rfl, rfl, rfl, rfl, fun a n => ⟨s.inBytes_length a n, s.auxBytes_length a n⟩, ?written,
    s.inBytes_getElem?⟩
  case written =>
    intro hd b
    exact ⟨fun i hb => s.look_written _ b hd hb,
      fun a n k hk hb => s.lookBytes_written _ n k b hd hk hb,
      fun a n k hk hb => s.lookBytes_written _ n k b hd hk hb⟩

/-! ## A host write and the model's schedule and host (logs 8 and 9) -/

@[simp] theorem State.writeReg_host (s : State) (r : RegName) (v : Word) : (s.writeReg r v).host = s.host := by
  cases r <;> rfl

/-- A register write neither reads nor changes the schedule. -/
theorem State.writeReg_withTurns (s : State) (ts : List Turn) (r : RegName) (v : Word) :
    State.writeReg { s with turns := ts } r v = { s.writeReg r v with turns := ts } := by
  cases r <;> rfl

/-- What a host register write can do: nothing, or the write of one register. -/
theorem State.hostRegWrite_cases (s : State) (offset size : Nat) (v : Word) :
    (s.hostRegWrite offset size v = s ∧ (s.busy = true ∨ registerAt offset size = none))
      ∨ ∃ r, s.busy = false ∧ registerAt offset size = some r ∧ s.hostRegWrite offset size v = s.writeReg r v := by
  unfold State.hostRegWrite
  cases s.busy with
  | true => exact .inl ⟨rfl, .inl rfl⟩
  | false =>
    cases registerAt offset size with
    | none => exact .inl ⟨rfl, .inr rfl⟩
    | some r => exact .inr ⟨r, rfl, rfl, rfl⟩

@[simp] theorem State.hostRegWrite_host (s : State) (offset size : Nat) (v : Word) :
    (s.hostRegWrite offset size v).host = s.host := by
  obtain ⟨h, -⟩ | ⟨r, -, -, h⟩ := s.hostRegWrite_cases offset size v
  · rw [h]
  · rw [h, State.writeReg_host]

theorem State.hostRegWrite_withTurns (s : State) (ts : List Turn) (offset size : Nat) (v : Word) :
    State.hostRegWrite { s with turns := ts } offset size v = { s.hostRegWrite offset size v with turns := ts } := by
  have hbusy : State.busy { s with turns := ts } = s.busy := rfl
  unfold State.hostRegWrite
  rw [hbusy]
  cases s.busy with
  | true => rfl
  | false =>
    cases registerAt offset size with
    | none => rfl
    | some r => exact s.writeReg_withTurns ts r v

@[simp] theorem State.hostMemWrite_host (s : State) (a : Nat) (b : Byte) : (s.hostMemWrite a b).host = s.host := by
  unfold State.hostMemWrite
  split <;> rfl

theorem State.hostMemWrite_withTurns (s : State) (ts : List Turn) (a : Nat) (b : Byte) :
    State.hostMemWrite { s with turns := ts } a b = { s.hostMemWrite a b with turns := ts } := by
  by_cases h : a < s.memSize
  · rw [State.hostMemWrite, State.hostMemWrite, if_pos h, if_pos h]
    rfl
  · rw [State.hostMemWrite, State.hostMemWrite, if_neg h, if_neg h]

/-! ## A host step -/

/-- The host's turn: it is taken off the schedule, and the host moves. -/
theorem step_host (s : State) (rest : List Turn) (h : s.turns = .host :: rest) :
    step s = .next (State.hostStep { s with turns := rest }) := by
  rw [step, nextTurn, h]
  rfl

theorem State.hostStep_of_op (s : State) (op : HostOp) (h : s.host.prog[s.host.pc]? = some op) :
    s.hostStep = s.hostPerform op := by
  rw [State.hostStep, h]

theorem State.hostStep_at_end (s : State) (h : s.host.prog[s.host.pc]? = none) : s.hostStep = s := by
  rw [State.hostStep, h]

/-- The host's turn with an op at its position: the host performs that op. -/
theorem step_host_op (s : State) (rest : List Turn) (op : HostOp) (h : s.turns = .host :: rest)
    (hop : s.host.prog[s.host.pc]? = some op) : step s = .next (State.hostPerform { s with turns := rest } op) := by
  rw [step_host s rest h, State.hostStep_of_op { s with turns := rest } op hop]

/-- Settles O59: a write commutes with taking the turn off the schedule and leaves the host's record alone, so the step is
the write with the host moved on. -/
theorem hostWriteStepsPerformTheWrite : Obligations.HostWriteStepsPerformTheWrite := by
  intro s rest h
  refine ⟨fun offset size v hop => ?regWrite, fun a b hop => ?memWrite, fun hend => ?atEnd⟩
  case regWrite =>
    rw [step_host_op s rest _ h hop, State.hostPerform, State.hostRegWrite_withTurns, State.hostGoto,
      State.hostRegWrite_host]
  case memWrite =>
    rw [step_host_op s rest _ h hop, State.hostPerform, State.hostMemWrite_withTurns, State.hostGoto,
      State.hostMemWrite_host]
  case atEnd =>
    rw [step_host s rest h, State.hostStep_at_end { s with turns := rest } hend]

end Sys2Proof.Machine
end

section
/-! What a command's success commits (30_encoding R78, R79, 40_cursor R106): OUT bytes only inside a checked OUT region, and
CUR only from the cursor commands and BLK_DECODE. -/

namespace Sys2Proof.Machine

/-- What a command answers before its end is settled: the value that `exec` settles, by `exec_eq_settle`. -/
def commandResult (i : Instr) (s : State) : Except CmdError Effect :=
  match i with
  | .curOpen => curOpen s
  | .curReadU8 => curReadU8 s
  | .curReadU16le => curReadU16le s
  | .curReadBytes => curReadBytes s
  | .curAtEnd => curAtEnd s
  | .blkDecode verify => blkDecode verify s
  | .blkEncode flag => blkEncode flag s
  | .xorCsum seed => xorCsum seed s
  | .hdrDecode => hdrDecode s
  | .hdrEncode => hdrEncode s
  | .tapDecode verify => tapDecode verify s
  | .tapEncode => tapEncode s
  | .sprUnpack => sprUnpack s
  | .sprPack => sprPack s
  | .attrUnpack => attrUnpack s
  | .attrPack => attrPack s
  | .layout => layoutCmd s
  | .exportTape => exportCmd s

/-- Every command is its result, settled (60_exceptions R234). -/
theorem exec_eq_settle (i : Instr) (s : State) : exec i s = .next (s.settle (commandResult i s)) := by
  cases i <;> rfl

/-- A command's next state is its success, scrambled if the host disturbed it, or its abort. -/
theorem exec_cases (i : Instr) (s t : State) (h : exec i s = .next t) :
    (∃ f, commandResult i s = .ok f ∧ t = s.apply (if s.disturbed then f.scrambled s.tick else f))
      ∨ ∃ e, commandResult i s = .error e ∧ t = s.abort e := by
  rw [exec_eq_settle] at h
  cases h
  exact s.settle_cases _

/-! ## Commands that pass their checks -/

/-- The output of these results, if any, fits an OUT region inside MEM (30_encoding R76, R78). -/
def Effect.WithinOut (f : Effect) (s : State) : Prop :=
  ∀ bytes, f.out = some bytes → s.Fits .out ∧ bytes.length ≤ s.len .out

theorem Effect.withinOut_of_none (f : Effect) (s : State) (h : f.out = none) : f.WithinOut s := by
  intro bytes hbytes
  rw [h] at hbytes
  cases hbytes

/-- Free values take no more room than the output they replace. -/
theorem Effect.withinOut_scrambled (f : Effect) (s : State) (tick : Nat) (h : f.WithinOut s) :
    (f.scrambled tick).WithinOut s := by
  intro bytes hbytes
  obtain ⟨original, horiginal, hlength⟩ := f.scrambled_out_length tick bytes hbytes
  exact hlength ▸ h original horiginal

theorem checkRegion_then_ok {α : Type} {s : State} {r : RegionId} {next : Unit → Except CmdError α} {a : α}
    (h : (checkRegion s r >>= next) = .ok a) : s.Fits r ∧ next () = .ok a := by
  by_cases hfits : s.Fits r
  · rw [checkRegion_ok s r hfits] at h
    exact ⟨hfits, h⟩
  · rw [checkRegion_error s r hfits] at h
    cases h

theorem checkInOut_then_ok {α : Type} {s : State} {next : Unit → Except CmdError α} {a : α}
    (h : (checkInOut s >>= next) = .ok a) : s.InOutReady ∧ next () = .ok a := by
  obtain ⟨hok, hready⟩ | ⟨herr, -⟩ | ⟨herr, -⟩ | ⟨herr, -⟩ := checkInOut_cases s
  · rw [hok] at h
    exact ⟨hready, h⟩
  all_goals
    rw [herr] at h
    cases h

theorem checkInAuxOut_then_ok {α : Type} {s : State} {next : Unit → Except CmdError α} {a : α}
    (h : (checkInAuxOut s >>= next) = .ok a) : s.InAuxOutReady ∧ next () = .ok a := by
  obtain ⟨hok, hready⟩ | ⟨herr, -⟩ | ⟨herr, -⟩ | ⟨herr, -⟩ | ⟨herr, -⟩ | ⟨herr, -⟩ := checkInAuxOut_cases s
  · rw [hok] at h
    exact ⟨hready, h⟩
  all_goals
    rw [herr] at h
    cases h

/-- A command that ends with the output check commits an output that fits (30_encoding R78). -/
theorem checkOutput_then_ok {s : State} {out : List Byte} {f g : Effect} (hfits : s.Fits .out)
    (h : (checkOutput s out >>= fun _ => Except.ok f) = .ok g) (hout : f.out = some out) :
    g.WithinOut s ∧ g.cur = f.cur := by
  by_cases hlength : out.length ≤ s.outLen.toNat
  · rw [checkOutput_ok s out hlength] at h
    cases h
    refine ⟨fun bytes hbytes => ?_, rfl⟩
    rw [hout] at hbytes
    cases hbytes
    exact ⟨hfits, hlength⟩
  · rw [checkOutput_error s out (by omega)] at h
    cases h

/-! ## The commands that move CUR -/

theorem curOpen_ok {s : State} {f : Effect} (h : curOpen s = .ok f) : f.WithinOut s ∧ f.cur = value 0 := by
  cases h
  exact ⟨Effect.withinOut_of_none _ s rfl, rfl⟩

theorem curReadU8_ok {s : State} {f : Effect} (h : curReadU8 s = .ok f) :
    f.WithinOut s ∧ ∃ k, k ≤ s.avail ∧ f.cur = value (s.cur.toNat + k) := by
  obtain ⟨-, h⟩ := checkRegion_then_ok h
  split at h
  · cases h
  next hcur =>
    cases h
    refine ⟨Effect.withinOut_of_none _ s rfl, 1, ?_, rfl⟩
    rw [State.avail]
    omega

theorem curReadU16le_ok {s : State} {f : Effect} (h : curReadU16le s = .ok f) :
    f.WithinOut s ∧ ∃ k, k ≤ s.avail ∧ f.cur = value (s.cur.toNat + k) := by
  obtain ⟨-, h⟩ := checkRegion_then_ok h
  split at h
  · cases h
  next havail =>
    cases h
    exact ⟨Effect.withinOut_of_none _ s rfl, 2, by omega, rfl⟩

theorem curReadBytes_ok {s : State} {f : Effect} (h : curReadBytes s = .ok f) :
    f.WithinOut s ∧ ∃ k, k ≤ s.avail ∧ f.cur = value (s.cur.toNat + k) := by
  obtain ⟨hready, h⟩ := checkInOut_then_ok h
  split at h
  · cases h
  next havail =>
    obtain ⟨hwithin, hcur⟩ := checkOutput_then_ok hready.outFits h rfl
    exact ⟨hwithin, s.argCount, by omega, hcur⟩

theorem blkDecode_ok {verify : Bool} {s : State} {f : Effect} (h : blkDecode verify s = .ok f) :
    f.WithinOut s ∧ ∃ k, k ≤ s.avail ∧ f.cur = value (s.cur.toNat + k) := by
  obtain ⟨hready, h⟩ := checkInOut_then_ok h
  obtain ⟨r, hparse, h⟩ := bind_eq_ok _ _ _ h
  obtain ⟨_, -, h⟩ := bind_eq_ok _ _ _ h
  obtain ⟨hwithin, hcur⟩ := checkOutput_then_ok hready.outFits h rfl
  obtain ⟨hprogress, hend⟩ := parseBlock_progress s.inAll s.cur.toNat r hparse
  rw [State.inAll_length] at hend
  refine ⟨hwithin, r.2 - s.cur.toNat, ?_, ?_⟩
  · rw [State.avail, State.len]
    omega
  · rw [hcur, Nat.add_sub_cancel' (by omega)]

/-! ## The commands that leave CUR alone -/

theorem curAtEnd_ok {s : State} {f : Effect} (h : curAtEnd s = .ok f) : f.WithinOut s ∧ f.cur = none := by
  cases h
  exact ⟨Effect.withinOut_of_none _ s rfl, rfl⟩

theorem blkEncode_ok {flag : Byte} {s : State} {f : Effect} (h : blkEncode flag s = .ok f) :
    f.WithinOut s ∧ f.cur = none := by
  obtain ⟨hready, h⟩ := checkInOut_then_ok h
  obtain ⟨_, -, h⟩ := bind_eq_ok _ _ _ h
  exact checkOutput_then_ok hready.outFits h rfl

theorem xorCsum_ok {seed : Byte} {s : State} {f : Effect} (h : xorCsum seed s = .ok f) :
    f.WithinOut s ∧ f.cur = none := by
  obtain ⟨-, h⟩ := checkRegion_then_ok h
  cases h
  exact ⟨Effect.withinOut_of_none _ s rfl, rfl⟩

theorem hdrDecode_ok {s : State} {f : Effect} (h : hdrDecode s = .ok f) : f.WithinOut s ∧ f.cur = none := by
  obtain ⟨hready, h⟩ := checkInOut_then_ok h
  split at h
  · cases h
  · exact checkOutput_then_ok hready.outFits h rfl

theorem hdrEncode_ok {s : State} {f : Effect} (h : hdrEncode s = .ok f) : f.WithinOut s ∧ f.cur = none := by
  obtain ⟨hready, h⟩ := checkInOut_then_ok h
  exact checkOutput_then_ok hready.outFits h rfl

theorem tapDecode_ok {verify : Bool} {s : State} {f : Effect} (h : tapDecode verify s = .ok f) :
    f.WithinOut s ∧ f.cur = none := by
  obtain ⟨hready, h⟩ := checkInOut_then_ok h
  obtain ⟨_, -, h⟩ := bind_eq_ok _ _ _ h
  exact checkOutput_then_ok hready.outFits h rfl

theorem tapEncode_ok {s : State} {f : Effect} (h : tapEncode s = .ok f) : f.WithinOut s ∧ f.cur = none := by
  obtain ⟨hready, h⟩ := checkInAuxOut_then_ok h
  obtain ⟨_, -, h⟩ := bind_eq_ok _ _ _ h
  obtain ⟨_, -, h⟩ := bind_eq_ok _ _ _ h
  exact checkOutput_then_ok hready.outFits h rfl

theorem sprUnpack_ok {s : State} {f : Effect} (h : sprUnpack s = .ok f) : f.WithinOut s ∧ f.cur = none := by
  obtain ⟨hready, h⟩ := checkInOut_then_ok h
  exact checkOutput_then_ok hready.outFits h rfl

theorem sprPack_ok {s : State} {f : Effect} (h : sprPack s = .ok f) : f.WithinOut s ∧ f.cur = none := by
  obtain ⟨hready, h⟩ := checkInOut_then_ok h
  obtain ⟨_, -, h⟩ := bind_eq_ok _ _ _ h
  obtain ⟨_, -, h⟩ := bind_eq_ok _ _ _ h
  obtain ⟨_, -, h⟩ := bind_eq_ok _ _ _ h
  exact checkOutput_then_ok hready.outFits h rfl

theorem attrUnpack_ok {s : State} {f : Effect} (h : attrUnpack s = .ok f) : f.WithinOut s ∧ f.cur = none := by
  cases h
  exact ⟨Effect.withinOut_of_none _ s rfl, rfl⟩

theorem attrPack_ok {s : State} {f : Effect} (h : attrPack s = .ok f) : f.WithinOut s ∧ f.cur = none := by
  cases h
  exact ⟨Effect.withinOut_of_none _ s rfl, rfl⟩

theorem layoutCmd_ok {s : State} {f : Effect} (h : layoutCmd s = .ok f) : f.WithinOut s ∧ f.cur = none := by
  obtain ⟨-, h⟩ := checkRegion_then_ok h
  obtain ⟨_, -, h⟩ := bind_eq_ok _ _ _ h
  obtain ⟨_, -, h⟩ := bind_eq_ok _ _ _ h
  cases h
  exact ⟨Effect.withinOut_of_none _ s rfl, rfl⟩

theorem exportCmd_ok {s : State} {f : Effect} (h : exportCmd s = .ok f) : f.WithinOut s ∧ f.cur = none := by
  obtain ⟨hready, h⟩ := checkInAuxOut_then_ok h
  obtain ⟨_, -, h⟩ := bind_eq_ok _ _ _ h
  obtain ⟨_, -, h⟩ := bind_eq_ok _ _ _ h
  obtain ⟨_, -, h⟩ := bind_eq_ok _ _ _ h
  exact checkOutput_then_ok hready.outFits h rfl

/-! ## Every command -/

/-- The commands that move CUR forward over IN (40_cursor R106). -/
def ReadsAtCursor (i : Instr) : Prop :=
  i = .curReadU8 ∨ i = .curReadU16le ∨ i = .curReadBytes ∨ ∃ v, i = .blkDecode v

/-- How the results of a command move CUR: not at all, to 0 by CUR_OPEN, or on by at most what IN has left. -/
def CursorMove (i : Instr) (s : State) (f : Effect) : Prop :=
  f.cur = none ∨ (i = .curOpen ∧ f.cur = value 0)
    ∨ (ReadsAtCursor i ∧ ∃ k, k ≤ s.avail ∧ f.cur = value (s.cur.toNat + k))

/-- What a successful command commits: an output that fits OUT, and one of the three cursor moves. -/
theorem commandResult_ok {i : Instr} {s : State} {f : Effect} (h : commandResult i s = .ok f) :
    f.WithinOut s ∧ CursorMove i s f := by
  have stays (hf : f.WithinOut s ∧ f.cur = none) : f.WithinOut s ∧ CursorMove i s f := hf.imp_right .inl
  have reads (hi : ReadsAtCursor i) (hf : f.WithinOut s ∧ ∃ k, k ≤ s.avail ∧ f.cur = value (s.cur.toNat + k)) :
      f.WithinOut s ∧ CursorMove i s f := hf.imp_right fun hcur => .inr (.inr ⟨hi, hcur⟩)
  cases i with
  | curOpen => exact (curOpen_ok h).imp_right fun hcur => .inr (.inl ⟨rfl, hcur⟩)
  | curReadU8 => exact reads (.inl rfl) (curReadU8_ok h)
  | curReadU16le => exact reads (.inr (.inl rfl)) (curReadU16le_ok h)
  | curReadBytes => exact reads (.inr (.inr (.inl rfl))) (curReadBytes_ok h)
  | blkDecode verify => exact reads (.inr (.inr (.inr ⟨verify, rfl⟩))) (blkDecode_ok h)
  | curAtEnd => exact stays (curAtEnd_ok h)
  | blkEncode flag => exact stays (blkEncode_ok h)
  | xorCsum seed => exact stays (xorCsum_ok h)
  | hdrDecode => exact stays (hdrDecode_ok h)
  | hdrEncode => exact stays (hdrEncode_ok h)
  | tapDecode verify => exact stays (tapDecode_ok h)
  | tapEncode => exact stays (tapEncode_ok h)
  | sprUnpack => exact stays (sprUnpack_ok h)
  | sprPack => exact stays (sprPack_ok h)
  | attrUnpack => exact stays (attrUnpack_ok h)
  | attrPack => exact stays (attrPack_ok h)
  | layout => exact stays (layoutCmd_ok h)
  | exportTape => exact stays (exportCmd_ok h)

/-! ## The cursor (10_state R21) -/

/-- Moving CUR on by at most what IN has left stays inside IN, and a move by 0 is none. -/
theorem cursor_advance (s : State) (k : Nat) (hk : k ≤ s.avail) (hmoves : BitVec.ofNat 32 (s.cur.toNat + k) ≠ s.cur) :
    s.cur.toNat < (BitVec.ofNat 32 (s.cur.toNat + k)).toNat
      ∧ (BitVec.ofNat 32 (s.cur.toNat + k)).toNat ≤ s.inLen.toNat := by
  have hpos : k ≠ 0 := by
    rintro rfl
    exact hmoves (by simp)
  rw [State.avail, State.len] at hk
  have hlen := s.inLen.isLt
  rw [BitVec.toNat_ofNat, Nat.mod_eq_of_lt (by omega)]
  omega

/-- Settles O15: an abort keeps CUR, a success moves it as `commandResult_ok` says, and scrambling leaves the move alone. -/
theorem onlyCursorCommandsMoveTheCursor : Obligations.OnlyCursorCommandsMoveTheCursor := by
  intro i s t hexec hmoved
  obtain ⟨f, hok, rfl⟩ | ⟨e, -, rfl⟩ := exec_cases i s t hexec
  case inr => exact absurd (s.abort_cur e) hmoved
  have hcur : (s.apply (if s.disturbed then f.scrambled s.tick else f)).cur = f.cur.getD s.cur := by
    rw [State.apply_cur]
    split <;> rfl
  rw [hcur] at hmoved ⊢
  obtain ⟨-, hnone | ⟨hopen, hzero⟩ | ⟨hreads, k, hk, hadvance⟩⟩ := commandResult_ok hok
  · exact absurd (by rw [hnone, Option.getD_none]) hmoved
  · exact .inl ⟨hopen, by rw [hzero]; rfl⟩
  · rw [hadvance] at hmoved ⊢
    exact .inr ⟨hreads, cursor_advance s k hk hmoved⟩

end Sys2Proof.Machine
end

section
/-! The register window (10_state R22 to R32), STATUS, the state after reset, and the host's reads: which access reaches which
register, and what it does there. -/

namespace Sys2Proof.Machine

/-! ## Register accesses -/

theorem State.busy_eq_false_iff (s : State) : s.busy = false ↔ s.pending = none := by
  simp [State.busy]

/-- No register answers an access that is not an aligned 32-bit access, or one at a reserved offset. -/
theorem registerAt_eq_none {offset size : Nat} (h : size ≠ 4 ∨ offset % 4 ≠ 0 ∨ 0x58 ≤ offset) :
    registerAt offset size = none := by
  by_cases haccess : registerAccess offset size = true
  · have hcount : registerOrder.length = 22 := rfl
    rw [registerAt, if_pos haccess, List.getElem?_eq_none_iff, hcount]
    simp only [registerAccess, Bool.and_eq_true, decide_eq_true_eq] at haccess
    omega
  · rw [registerAt, if_neg haccess]

theorem State.hostRegWrite_of_no_register (s : State) {offset size : Nat} (v : Word) (h : registerAt offset size = none) :
    s.hostRegWrite offset size v = s := by
  obtain ⟨hsame, -⟩ | ⟨r, -, hr, -⟩ := s.hostRegWrite_cases offset size v
  · exact hsame
  · rw [h] at hr
    cases hr

/-- While idle, an access that reaches a register writes it. -/
theorem State.hostRegWrite_idle (s : State) {offset size : Nat} {r : RegName} (v : Word) (hidle : s.busy = false)
    (h : registerAt offset size = some r) : s.hostRegWrite offset size v = s.writeReg r v := by
  obtain ⟨-, hbusy | hnone⟩ | ⟨r', -, hr, hwrite⟩ := s.hostRegWrite_cases offset size v
  · rw [hidle] at hbusy
    cases hbusy
  · rw [h] at hnone
    cases hnone
  · rw [h] at hr
    cases hr
    exact hwrite

theorem State.hostRegValue_of_no_register (s : State) {offset size : Nat} (h : registerAt offset size = none) :
    s.hostRegValue offset size = 0 := by
  rw [State.hostRegValue, h]

/-- A register other than RES0 to RES5 reads as it stands at any time (70_reset R268). -/
theorem State.hostRegValue_not_res (s : State) {offset size : Nat} {r : RegName} (h : registerAt offset size = some r)
    (hres : resNumber r = none) : s.hostRegValue offset size = s.readReg r := by
  rw [State.hostRegValue, h]
  simp only [hres]
  cases s.busy <;> rfl

/-- While idle, every register reads as it stands. -/
theorem State.hostRegValue_idle (s : State) {offset size : Nat} {r : RegName} (hidle : s.busy = false)
    (h : registerAt offset size = some r) : s.hostRegValue offset size = s.readReg r := by
  rw [State.hostRegValue, h]
  simp only [hidle]

/-! ## Writes -/

/-- Settles O47: each offset reaches its register, and an idle write there is one record update. -/
theorem writableRegistersHoldWhatIsWritten : Obligations.WritableRegistersHoldWhatIsWritten := by
  intro s v hidle
  exact ⟨s.hostRegWrite_idle (r := .inBase) v hidle rfl, s.hostRegWrite_idle (r := .inLen) v hidle rfl,
    s.hostRegWrite_idle (r := .auxBase) v hidle rfl, s.hostRegWrite_idle (r := .auxLen) v hidle rfl,
    s.hostRegWrite_idle (r := .outBase) v hidle rfl, s.hostRegWrite_idle (r := .outLen) v hidle rfl,
    s.hostRegWrite_idle (r := .arg0) v hidle rfl, s.hostRegWrite_idle (r := .arg1) v hidle rfl,
    s.hostRegWrite_idle (r := .arg2) v hidle rfl, s.hostRegWrite_idle (r := .arg3) v hidle rfl⟩

/-- The registers that a host write never changes (10_state R22, R32). -/
def readOnlyRegisters : List RegName :=
  [.id, .status, .errcode, .errinfo, .cur, .res0, .res1, .res2, .res3, .res4, .res5]

theorem State.writeReg_readOnly (s : State) {r : RegName} (v : Word) (h : r ∈ readOnlyRegisters) : s.writeReg r v = s := by
  simp only [readOnlyRegisters, List.mem_cons, List.not_mem_nil, or_false] at h
  obtain rfl | rfl | rfl | rfl | rfl | rfl | rfl | rfl | rfl | rfl | rfl := h <;> rfl

theorem registerAt_readOnly : ∀ offset ∈ [0x00, 0x08, 0x0C, 0x10, 0x2C, 0x40, 0x44, 0x48, 0x4C, 0x50, 0x54],
    ∃ r ∈ readOnlyRegisters, registerAt offset 4 = some r := by
  decide

/-- Settles O48: a bad access reaches no register, and a write that reaches a read-only register leaves it. -/
theorem otherRegisterAccessesDoNothing : Obligations.OtherRegisterAccessesDoNothing := by
  intro s offset size v
  refine ⟨fun hbad => ?noRegister, fun hoffset => ?readOnly⟩
  case noRegister =>
    have hnone := registerAt_eq_none hbad
    exact ⟨s.hostRegWrite_of_no_register v hnone, s.hostRegValue_of_no_register hnone⟩
  case readOnly =>
    obtain ⟨r, hreadOnly, hr⟩ := registerAt_readOnly offset hoffset
    obtain ⟨hsame, -⟩ | ⟨r', -, hr', hwrite⟩ := s.hostRegWrite_cases offset 4 v
    · exact hsame
    · rw [hr] at hr'
      cases hr'
      rw [hwrite, s.writeReg_readOnly v hreadOnly]

/-! ## Reads -/

/-- Settles O49: each offset reaches its register, which reads as it stands; RES0 to RES5 do so while idle. -/
theorem registerReadsShowTheRegisters : Obligations.RegisterReadsShowTheRegisters := by
  intro s
  have always {offset : Nat} {r : RegName} (h : registerAt offset 4 = some r) (hres : resNumber r = none) :
      s.hostRegValue offset 4 = s.readReg r := s.hostRegValue_not_res h hres
  refine ⟨always (r := .id) rfl rfl, always (r := .cmd) rfl rfl, always (r := .status) rfl rfl,
    always (r := .errcode) rfl rfl, always (r := .errinfo) rfl rfl, always (r := .inBase) rfl rfl,
    always (r := .inLen) rfl rfl, always (r := .auxBase) rfl rfl, always (r := .auxLen) rfl rfl,
    always (r := .outBase) rfl rfl, always (r := .outLen) rfl rfl, always (r := .cur) rfl rfl,
    always (r := .arg0) rfl rfl, always (r := .arg1) rfl rfl, always (r := .arg2) rfl rfl,
    always (r := .arg3) rfl rfl, fun hpending => ?_⟩
  have hidle := s.busy_eq_false_iff.mpr hpending
  exact ⟨s.hostRegValue_idle (r := .res0) hidle rfl, s.hostRegValue_idle (r := .res1) hidle rfl,
    s.hostRegValue_idle (r := .res2) hidle rfl, s.hostRegValue_idle (r := .res3) hidle rfl,
    s.hostRegValue_idle (r := .res4) hidle rfl, s.hostRegValue_idle (r := .res5) hidle rfl⟩

/-! ## STATUS -/

theorem getLsbD_bit (b : Bool) (k : Nat) : (bit b).getLsbD k = (decide (k = 0) && b) := by
  cases b
  · simp [bit]
  · simp [bit, BitVec.getLsbD_one]

/-- Bit k of STATUS: each flag stands alone at its own place (10_state R25). -/
theorem State.getLsbD_statusWord (s : State) (k : Nat) : s.statusWord.getLsbD k
    = ((decide (k = 0) && s.busy) || (decide (k = 1) && s.done) || (decide (k = 2) && s.err)
      || (decide (k = 3) && s.atEnd)) := by
  obtain _ | _ | _ | _ | k := k
  all_goals simp [State.statusWord, getLsbD_bit, -BitVec.getLsbD_eq_getElem]

/-- Settles O50: every bit of STATUS is read off `State.getLsbD_statusWord`. -/
theorem statusBits : Obligations.StatusBits := by
  intro s
  refine ⟨?_, ?_, ?_, ?_, fun k hk => ?reserved⟩
  case reserved =>
    rw [s.getLsbD_statusWord, decide_eq_false (by omega : ¬ k = 0), decide_eq_false (by omega : ¬ k = 1),
      decide_eq_false (by omega : ¬ k = 2), decide_eq_false (by omega : ¬ k = 3)]
    rfl
  all_goals
    rw [s.getLsbD_statusWord]
    simp [State.busy, State.atEnd]

/-! ## Reset -/

/-- The reset column of 10_state R22. -/
def resetValue : RegName → Word
  | .id => Config.idValue
  | .status => 0x00000008
  | _ => 0

/-- With no command running or ended and the cursor at the end of IN, STATUS shows AT_END alone. -/
theorem State.statusWord_at_end (s : State) (hbusy : s.busy = false) (hdone : s.done = false) (herr : s.err = false)
    (hend : s.atEnd = true) : s.statusWord = 0x00000008 := by
  rw [State.statusWord, hbusy, hdone, herr, hend]
  rfl

theorem State.resetWith_readReg (n : Nat) (r : RegName) : (State.resetWith n).readReg r = resetValue r := by
  cases r with
  | status => exact State.statusWord_at_end _ rfl rfl rfl rfl
  | _ => rfl

/-- Platform reset leaves the registers of the reset state. -/
theorem State.platformReset_readReg (s : State) (r : RegName) : s.platformReset.readReg r = resetValue r :=
  State.resetWith_readReg s.memSize r

theorem registerAt_reset_zero : ∀ offset ∈ [0x04, 0x0C, 0x10, 0x14, 0x18, 0x1C, 0x20, 0x24, 0x28, 0x2C, 0x30, 0x34, 0x38,
    0x3C, 0x40, 0x44, 0x48, 0x4C, 0x50, 0x54], ∃ r ∈ registerOrder, registerAt offset 4 = some r ∧ resetValue r = 0 := by
  decide

/-- An idle state whose registers hold their reset column shows it to the host. -/
theorem State.readsResetValues_of_idle (s : State) (hidle : s.busy = false) (h : ∀ r, s.readReg r = resetValue r) :
    s.ReadsResetValues := by
  have reads {offset : Nat} {r : RegName} (hr : registerAt offset 4 = some r) : s.hostRegValue offset 4 = resetValue r :=
    (s.hostRegValue_idle hidle hr).trans (h r)
  refine ⟨reads (r := .id) rfl, reads (r := .status) rfl, fun offset hoffset => ?_⟩
  obtain ⟨r, -, hr, hzero⟩ := registerAt_reset_zero offset hoffset
  rw [reads hr, hzero]

/-- The platform's turn to reset: it is taken off the schedule, and the machine is reset. -/
theorem step_reset (s : State) (rest : List Turn) (h : s.turns = .reset :: rest) :
    step s = .next (State.platformReset { s with turns := rest }) := by
  rw [step, nextTurn, h]
  rfl

/-- Settles O51: a reset turn gives `State.platformReset`, whose registers, like those of the reset state, hold their reset
column. -/
theorem resetSetsEveryRegister : Obligations.ResetSetsEveryRegister := by
  refine ⟨fun s rest h => ?turn, ?start, rfl, Memory.read?_nil⟩
  case turn =>
    exact ⟨_, step_reset s rest h, State.readsResetValues_of_idle _ rfl (State.platformReset_readReg _), rfl,
      Memory.read?_nil, rfl⟩
  case start => exact State.readsResetValues_of_idle _ rfl (State.resetWith_readReg _)

/-! ## A host step that reads -/

/-- A register read does not depend on the schedule. -/
theorem State.hostRegValue_withTurns (s : State) (ts : List Turn) (offset size : Nat) :
    State.hostRegValue { s with turns := ts } offset size = s.hostRegValue offset size := rfl

/-- A MEM read does not depend on the schedule. -/
theorem State.hostMemValue_withTurns (s : State) (ts : List Turn) (a : Nat) :
    State.hostMemValue { s with turns := ts } a = s.hostMemValue a := rfl

/-- Settles O58: the host performs its op, and a read is a note of the value and a move on, which touch the model's own fields
alone. -/
theorem hostReadsChangeNothingOfTheFramer : Obligations.HostReadsChangeNothingOfTheFramer := by
  intro s rest h
  refine ⟨fun offset size hop => ?regRead, fun a hop => ?memRead, fun onZero offset mask target hop => ?branch⟩
  case regRead =>
    rw [step_host_op s rest _ h hop, State.hostPerform, State.hostRegValue_withTurns]
    rfl
  case memRead =>
    rw [step_host_op s rest _ h hop, State.hostPerform, State.hostMemValue_withTurns]
    rfl
  case branch =>
    have hcondition : (((s.hostRegValue offset 4 &&& mask) == 0) = onZero)
        = (onZero = decide (s.hostRegValue offset 4 &&& mask = 0)) := by
      rw [beq_eq_decide]
      exact propext eq_comm
    rw [step_host_op s rest _ h hop, State.hostPerform, State.hostRegValue_withTurns]
    simp only [hcondition]
    rfl

end Sys2Proof.Machine
end

section
/-! The invariant of the machine (`State.Inv`): it holds after reset, and every operation a step is made of keeps it. -/

namespace Sys2Proof.Machine

/-! ## Reset -/

/-- The reset state of every legal MEM_SIZE meets the invariant. -/
theorem State.inv_resetWith (n : Nat) (h : Config.legalMemSize n) : (State.resetWith n).Inv where
  memCanonical := List.Pairwise.nil
  memInside := fun _ hc => absurd hc List.not_mem_nil
  sizeLegal := h
  busyNotDone := fun _ => rfl
  busyNotErr := fun _ => rfl
  doneNotErr := fun _ => rfl
  cmdShowsPending := fun _ hw => nomatch hw
  noErrorNoCode := fun _ => ⟨rfl, rfl⟩
  errorHasCode := fun herr => nomatch herr
  disturbedOnlyBusy := fun hd => nomatch hd

/-- Settles O10: the model's MEM_SIZE is one of the legal sizes. -/
theorem resetMeetsTheInvariant : Obligations.ResetMeetsTheInvariant :=
  ⟨State.inv_resetWith, State.inv_resetWith Config.resetMemSize (by decide)⟩

theorem State.Inv.platformReset {s : State} (hs : s.Inv) : s.platformReset.Inv :=
  { State.inv_resetWith s.memSize hs.sizeLegal with }

/-! ## The model's own fields: the schedule, the counter and the host -/

theorem State.Inv.withTurns {s : State} (hs : s.Inv) (ts : List Turn) : State.Inv { s with turns := ts } := { hs with }

theorem State.Inv.hostGoto {s : State} (hs : s.Inv) (pc : Nat) : (s.hostGoto pc).Inv := { hs with }

theorem State.Inv.hostNote {s : State} (hs : s.Inv) (v : Word) : (s.hostNote v).Inv := { hs with }

/-! ## The life of a command (60_exceptions R233 to R236) -/

theorem State.Inv.accept {s : State} (hs : s.Inv) (w : Word) : (s.accept w).Inv where
  memCanonical := hs.memCanonical
  memInside := hs.memInside
  sizeLegal := hs.sizeLegal
  busyNotDone := fun _ => rfl
  busyNotErr := fun _ => rfl
  doneNotErr := fun _ => rfl
  cmdShowsPending := fun _ hw => Option.some.inj hw
  noErrorNoCode := fun _ => ⟨rfl, rfl⟩
  errorHasCode := fun herr => nomatch herr
  disturbedOnlyBusy := fun _ => rfl

/-- Every error has one of the codes of 60_exceptions R231. -/
theorem CmdError.code_range (e : CmdError) : 1 ≤ e.code.toNat ∧ e.code.toNat ≤ 10 := by
  cases e <;> simp [CmdError.code]

/-- An abort ends a running command, which was neither DONE nor ERR. -/
theorem State.Inv.abort {s : State} (hs : s.Inv) (hbusy : s.busy = true) (e : CmdError) : (s.abort e).Inv where
  memCanonical := hs.memCanonical
  memInside := hs.memInside
  sizeLegal := hs.sizeLegal
  busyNotDone := fun h => nomatch h
  busyNotErr := fun h => nomatch h
  doneNotErr := fun h => by
    rw [State.abort_done, hs.busyNotDone hbusy] at h
    cases h
  cmdShowsPending := fun _ hw => nomatch hw
  noErrorNoCode := fun h => nomatch h
  errorHasCode := fun _ => e.code_range
  disturbedOnlyBusy := fun h => nomatch h

/-- A commit inside OUT lists only addresses below MEM_SIZE. -/
theorem State.committed_inside (s : State) (f : Effect) (hs : s.Inv) (hf : f.WithinOut s) :
    ∀ c ∈ s.committed f.out, c.1 < s.memSize := by
  intro c hc
  cases hout : f.out with
  | none =>
    rw [hout] at hc
    exact hs.memInside c hc
  | some bytes =>
    rw [hout, State.committed_some] at hc
    obtain ⟨hfits, hlength⟩ := hf bytes hout
    obtain hold | ⟨-, hnew⟩ := Memory.mem_writeBytes _ _ _ c hc
    · exact hs.memInside c hold
    · rw [State.Fits] at hfits
      omega

/-- A success ends a running command, and commits inside OUT. -/
theorem State.Inv.apply {s : State} (hs : s.Inv) (hbusy : s.busy = true) {f : Effect} (hf : f.WithinOut s) :
    (s.apply f).Inv where
  memCanonical := s.committed_wf f.out hs.memCanonical
  memInside := s.committed_inside f hs hf
  sizeLegal := hs.sizeLegal
  busyNotDone := fun h => nomatch h
  busyNotErr := fun h => nomatch h
  doneNotErr := fun _ => hs.busyNotErr hbusy
  cmdShowsPending := fun _ hw => nomatch hw
  noErrorNoCode := hs.noErrorNoCode
  errorHasCode := hs.errorHasCode
  disturbedOnlyBusy := fun h => nomatch h

/-- Running a pending command keeps the invariant, disturbed or not. -/
theorem State.Inv.exec {s t : State} (hs : s.Inv) (hbusy : s.busy = true) {i : Instr} (h : exec i s = .next t) :
    t.Inv := by
  obtain ⟨f, hok, rfl⟩ | ⟨e, -, rfl⟩ := exec_cases i s t h
  · obtain ⟨hwithin, -⟩ := commandResult_ok hok
    split
    · exact hs.apply hbusy (f.withinOut_scrambled s s.tick hwithin)
    · exact hs.apply hbusy hwithin
  · exact hs.abort hbusy e

/-! ## Whose turn it is -/

theorem State.Inv.writeReg {s : State} (hs : s.Inv) (r : RegName) (v : Word) : (s.writeReg r v).Inv := by
  cases r with
  | cmd => exact hs.accept v
  | _ => exact { hs with }

theorem State.Inv.hostRegWrite {s : State} (hs : s.Inv) (offset size : Nat) (v : Word) :
    (s.hostRegWrite offset size v).Inv := by
  obtain ⟨h, -⟩ | ⟨r, -, -, h⟩ := s.hostRegWrite_cases offset size v
  · rwa [h]
  · rw [h]
    exact hs.writeReg r v

/-- A byte in a region of the running command: there is one. -/
theorem State.busy_of_inAnyUsedRegion (s : State) (a : Nat) (h : s.inAnyUsedRegion a = true) : s.busy = true := by
  by_contra hidle
  have hpending := s.busy_eq_false_iff.mp (by simpa using hidle)
  simp [State.inAnyUsedRegion, State.inUsedRegion, State.pendingInstr, hpending] at h

/-- What a host MEM write below MEM_SIZE keeps: it disturbs only a running command. -/
theorem State.Inv.storeByte {s : State} (hs : s.Inv) {a : Nat} (ha : a < s.memSize) (b : Byte) :
    State.Inv { s with mem := s.mem.write a b, disturbed := s.disturbed || s.inAnyUsedRegion a } :=
  { hs with
    memCanonical := s.mem.write_wf a b hs.memCanonical
    memInside := fun c hc => by
      obtain hold | ⟨-, hnew⟩ := Memory.mem_writeBytes s.mem a [b] c hc
      · exact hs.memInside c hold
      · rw [List.length_singleton] at hnew
        simp only
        omega
    disturbedOnlyBusy := fun h => by
      obtain hbefore | hnow := Bool.or_eq_true_iff.mp h
      · exact hs.disturbedOnlyBusy hbefore
      · exact s.busy_of_inAnyUsedRegion a hnow }

theorem State.Inv.hostMemWrite {s : State} (hs : s.Inv) (a : Nat) (b : Byte) : (s.hostMemWrite a b).Inv := by
  by_cases ha : a < s.memSize
  · rw [State.hostMemWrite, if_pos ha]
    exact hs.storeByte ha b
  · rwa [State.hostMemWrite, if_neg ha]

theorem State.Inv.hostPerform {s : State} (hs : s.Inv) (op : HostOp) : (s.hostPerform op).Inv := by
  cases op with
  | regWrite offset size v => exact (hs.hostRegWrite offset size v).hostGoto _
  | regRead offset size => exact (hs.hostNote _).hostGoto _
  | memWrite a b => exact (hs.hostMemWrite a b).hostGoto _
  | memRead a => exact (hs.hostNote _).hostGoto _
  | branch onZero offset mask target => exact (hs.hostNote _).hostGoto _

theorem State.Inv.hostStep {s : State} (hs : s.Inv) : s.hostStep.Inv := by
  cases hop : s.host.prog[s.host.pc]? with
  | none => rwa [s.hostStep_at_end hop]
  | some op => exact s.hostStep_of_op op hop ▸ hs.hostPerform op

/-- What an engine step can do: nothing, the pending command, or IllegalCommand (60_exceptions R234). -/
theorem engineStep_cases (s : State) :
    (s.busy = false ∧ engineStep s = .next s)
      ∨ (s.busy = true ∧ ∃ i, engineStep s = exec i s)
      ∨ (s.busy = true ∧ ∃ w, engineStep s = .next (s.abort (.illegalCommand w))) := by
  cases hpending : s.pending with
  | none => exact .inl ⟨by simp [State.busy, hpending], by rw [engineStep, hpending]⟩
  | some w =>
    have hbusy : s.busy = true := by simp [State.busy, hpending]
    cases hdecode : decode w with
    | ok i => exact .inr (.inl ⟨hbusy, i, by rw [engineStep, hpending]; simp only [hdecode]⟩)
    | error e => exact .inr (.inr ⟨hbusy, w.toNat, by rw [engineStep, hpending]; simp only [hdecode]⟩)

theorem State.Inv.engineStep {s t : State} (hs : s.Inv) (h : engineStep s = .next t) : t.Inv := by
  obtain ⟨-, hidle⟩ | ⟨hbusy, i, hrun⟩ | ⟨hbusy, w, hillegal⟩ := engineStep_cases s
  · rw [hidle] at h
    cases h
    exact hs
  · exact hs.exec hbusy (hrun ▸ h)
  · rw [hillegal] at h
    cases h
    exact hs.abort hbusy _

theorem State.Inv.takeTurn {s t : State} (hs : s.Inv) {turn : Turn} (h : takeTurn turn s = .next t) : t.Inv := by
  cases turn with
  | host =>
    cases h
    exact hs.hostStep
  | engine => exact hs.engineStep h
  | reset =>
    cases h
    exact hs.platformReset

/-- A step is one agent's turn, on the state with some schedule left. -/
theorem step_eq_takeTurn (s : State) : ∃ turn rest, step s = takeTurn turn { s with turns := rest } := by
  cases hturns : s.turns with
  | nil =>
    refine ⟨s.defaultTurn, s.turns, ?_⟩
    rw [step, nextTurn, hturns]
    simp only [← hturns]
  | cons turn rest => exact ⟨turn, rest, by rw [step, nextTurn, hturns]⟩

/-- Settles O9: a step is one agent's turn, and each agent's turn keeps the invariant. -/
theorem everyStepKeepsTheInvariant : Obligations.EveryStepKeepsTheInvariant := by
  intro s t hs h
  obtain ⟨turn, rest, hstep⟩ := step_eq_takeTurn s
  exact (hs.withTurns rest).takeTurn (hstep ▸ h)

end Sys2Proof.Machine
end

section
/-! What a command touches of MEM (20_memory R51, R66): it writes only inside an OUT that its checks found clear of its input
regions, and what it does depends only on the bytes of those regions. -/

namespace Sys2Proof.Machine

/-! ## What a command writes (30_encoding R77, R78) -/

/-- OUT shares no byte with an input region that the command uses (30_encoding R77, R79). -/
def State.OutClear (s : State) (i : Instr) : Prop := ∀ r, i.uses r = true → r ≠ .out → s.ClearOf r

theorem State.InOutReady.outClear {s : State} {i : Instr} (h : s.InOutReady) (haux : i.uses .aux = false) :
    s.OutClear i := by
  intro r hr hne
  cases r with
  | inp => exact h.inClear
  | aux => exact absurd hr (by simp [haux])
  | out => exact absurd rfl hne

theorem State.InAuxOutReady.outClear {s : State} (i : Instr) (h : s.InAuxOutReady) : s.OutClear i := by
  intro r _ hne
  cases r with
  | inp => exact h.inClear
  | aux => exact h.auxClear
  | out => exact absurd rfl hne

/-- A command that uses OUT succeeds only after the overlap checks of the input regions it uses. -/
theorem commandResult_outClear {i : Instr} {s : State} {f : Effect} (hout : i.uses .out = true)
    (h : commandResult i s = .ok f) : s.OutClear i := by
  cases i with
  | curOpen | curReadU8 | curReadU16le | curAtEnd | xorCsum _ | attrUnpack | attrPack | layout => cases hout
  | curReadBytes | blkDecode _ | blkEncode _ | hdrDecode | hdrEncode | tapDecode _ | sprUnpack | sprPack =>
    obtain ⟨hready, -⟩ := checkInOut_then_ok h
    exact hready.outClear rfl
  | tapEncode | exportTape =>
    obtain ⟨hready, -⟩ := checkInAuxOut_then_ok h
    exact hready.outClear _

/-- A command that does not use OUT has no output (30_encoding R79). -/
theorem commandResult_out_eq_none {i : Instr} {s : State} {f : Effect} (hout : i.uses .out = false)
    (h : commandResult i s = .ok f) : f.out = none := by
  cases i with
  | curReadBytes | blkDecode _ | blkEncode _ | hdrDecode | hdrEncode | tapDecode _ | sprUnpack | sprPack | tapEncode
  | exportTape => cases hout
  | curOpen | curAtEnd | attrUnpack | attrPack =>
    cases h
    rfl
  | curReadU8 | curReadU16le =>
    obtain ⟨-, h⟩ := checkRegion_then_ok h
    split at h
    · cases h
    · cases h
      rfl
  | xorCsum _ =>
    obtain ⟨-, h⟩ := checkRegion_then_ok h
    cases h
    rfl
  | layout =>
    obtain ⟨-, h⟩ := checkRegion_then_ok h
    obtain ⟨_, -, h⟩ := bind_eq_ok _ _ _ h
    obtain ⟨_, -, h⟩ := bind_eq_ok _ _ _ h
    cases h
    rfl

/-- A success leaves MEM alone, or writes at OUT_BASE as many bytes as the command's output has, scrambled or not. -/
theorem State.finish_mem_cases (s : State) (f : Effect) :
    (s.finish f).mem = s.mem
      ∨ ∃ original bytes, f.out = some original ∧ bytes.length = original.length
        ∧ (s.finish f).mem = s.mem.writeBytes (s.base .out) bytes := by
  have hmem : (s.finish f).mem = s.committed (if s.disturbed then f.scrambled s.tick else f).out := rfl
  rw [hmem]
  cases hout : (if s.disturbed then f.scrambled s.tick else f).out with
  | none => exact .inl rfl
  | some bytes =>
    refine .inr ?_
    split at hout
    · obtain ⟨original, horiginal, hlength⟩ := f.scrambled_out_length s.tick bytes hout
      exact ⟨original, bytes, horiginal, hlength, rfl⟩
    · exact ⟨bytes, bytes, hout, rfl, rfl⟩

/-- All that a command can do to MEM: nothing, or a write of bytes inside an OUT that is clear of its input regions. -/
theorem exec_mem_cases {i : Instr} {s t : State} (h : exec i s = .next t) :
    t.mem = s.mem
      ∨ ∃ bytes, i.uses .out = true ∧ s.OutClear i ∧ bytes.length ≤ s.len .out
        ∧ t.mem = s.mem.writeBytes (s.base .out) bytes := by
  obtain ⟨f, hok, rfl⟩ | ⟨e, -, rfl⟩ := exec_cases i s t h
  case inr => exact .inl rfl
  obtain hsame | ⟨original, bytes, hout, hlength, hwrite⟩ := s.finish_mem_cases f
  · exact .inl hsame
  · cases huses : i.uses .out with
    | false => exact absurd (commandResult_out_eq_none huses hok) (by simp [hout])
    | true =>
      obtain ⟨hwithin, -⟩ := commandResult_ok hok
      obtain ⟨-, hfits⟩ := hwithin original hout
      exact .inr ⟨bytes, rfl, commandResult_outClear huses hok, hlength ▸ hfits, hwrite⟩

/-- A byte outside OUT reads after a command as before it. -/
theorem exec_read?_outside_out {i : Instr} {s t : State} (h : exec i s = .next t) {a : Nat}
    (ha : a < s.base .out ∨ s.base .out + s.len .out ≤ a) : t.mem.read? a = s.mem.read? a := by
  obtain hsame | ⟨bytes, -, -, hlength, hwrite⟩ := exec_mem_cases h
  · rw [hsame]
  · rw [hwrite]
    exact Memory.read?_writeBytes_outside _ _ a bytes (by omega)

theorem exec_mem_of_out_unused {i : Instr} {s t : State} (h : exec i s = .next t) (hunused : i.uses .out = false) :
    t.mem = s.mem := by
  obtain hsame | ⟨_, huses, -⟩ := exec_mem_cases h
  · exact hsame
  · exact absurd huses (by simp [hunused])

/-- Settles O11: neither end of a command touches the registers named, and a write stays inside OUT. -/
theorem commandsWriteOnlyInsideOut : Obligations.CommandsWriteOnlyInsideOut := by
  intro i s t h
  have hmem : (∀ a, a < s.base .out ∨ s.base .out + s.len .out ≤ a → t.mem.read? a = s.mem.read? a)
      ∧ (i.uses .out = false → t.mem = s.mem) := ⟨fun _ => exec_read?_outside_out h, exec_mem_of_out_unused h⟩
  obtain ⟨f, -, rfl⟩ | ⟨e, -, rfl⟩ := exec_cases i s t h
  case inl => exact ⟨rfl, rfl, rfl, rfl, rfl, rfl, rfl, rfl, rfl, rfl, rfl, rfl, rfl, rfl, hmem⟩
  case inr => exact ⟨rfl, rfl, rfl, rfl, rfl, rfl, rfl, rfl, rfl, rfl, rfl, rfl, rfl, rfl, hmem⟩

/-- Settles O12: what a command writes lies in OUT, which is then clear of the region. -/
theorem inputRegionsAreNeverWritten : Obligations.InputRegionsAreNeverWritten := by
  intro i s t r a huses hne hlow hhigh h
  obtain hsame | ⟨bytes, -, hclear, hlength, hwrite⟩ := exec_mem_cases h
  · rw [hsame]
  · have houtside : a < s.base .out ∨ s.base .out + bytes.length ≤ a := by
      have := hclear r huses hne
      rw [State.ClearOf] at this
      omega
    rw [hwrite, Memory.read?_writeBytes_outside _ _ a bytes houtside]

/-! ## What a command reads (20_memory R51) -/

/-- The state with other contents of MEM. -/
def State.withMem (s : State) (m : Memory) : State := { s with mem := m }

/-- MEM m agrees with the MEM of s on a region. -/
def State.SameRegion (s : State) (m : Memory) (r : RegionId) : Prop :=
  ∀ a, s.base r ≤ a → a < s.base r + s.len r → m.read? a = s.mem.read? a

section
variable (s : State) (m : Memory)

@[simp] theorem State.withMem_mem : (s.withMem m).mem = m := rfl
@[simp] theorem State.withMem_cur : (s.withMem m).cur = s.cur := rfl
@[simp] theorem State.withMem_avail : (s.withMem m).avail = s.avail := rfl
@[simp] theorem State.withMem_argCount : (s.withMem m).argCount = s.argCount := rfl

@[simp] theorem State.withMem_base (r : RegionId) : (s.withMem m).base r = s.base r := by cases r <;> rfl
@[simp] theorem State.withMem_len (r : RegionId) : (s.withMem m).len r = s.len r := by cases r <;> rfl

@[simp] theorem checkInOut_withMem : checkInOut (s.withMem m) = checkInOut s := rfl
@[simp] theorem checkRegion_withMem (r : RegionId) : checkRegion (s.withMem m) r = checkRegion s r := by cases r <;> rfl
@[simp] theorem checkOutput_withMem (out : List Byte) : checkOutput (s.withMem m) out = checkOutput s out := rfl

end

/-! ### The reads of a region -/

section
variable {s : State} {m : Memory}

/-- The byte a command sees at an address depends on no other byte of MEM, disturbed or not. -/
theorem State.look_withMem {a : Nat} (h : m.read? a = s.mem.read? a) : (s.withMem m).look a = s.look a := by
  rw [State.look, State.look, State.withMem_mem, h]
  rfl

theorem State.lookBytes_withMem {r : RegionId} (h : s.SameRegion m r) {a n : Nat} (ha : n ≤ s.len r - a) :
    (s.withMem m).lookBytes (s.base r + a) n = s.lookBytes (s.base r + a) n :=
  State.lookBytes_congr _ _ _ _ fun x hlow hhigh => State.look_withMem (h x (by omega) (by omega))

theorem State.inByte_withMem (h : s.SameRegion m .inp) {k : Nat} (hk : k < s.len .inp) :
    (s.withMem m).inByte k = s.inByte k :=
  State.look_withMem (h (s.base .inp + k) (by omega) (by omega))

theorem State.inBytes_withMem (h : s.SameRegion m .inp) {a n : Nat} (ha : n ≤ s.len .inp - a) :
    (s.withMem m).inBytes a n = s.inBytes a n :=
  State.lookBytes_withMem h ha

theorem State.auxBytes_withMem (h : s.SameRegion m .aux) {a n : Nat} (ha : n ≤ s.len .aux - a) :
    (s.withMem m).auxBytes a n = s.auxBytes a n :=
  State.lookBytes_withMem h ha

theorem State.inAll_withMem (h : s.SameRegion m .inp) : (s.withMem m).inAll = s.inAll :=
  State.inBytes_withMem h le_rfl

theorem State.auxAll_withMem (h : s.SameRegion m .aux) : (s.withMem m).auxAll = s.auxAll :=
  State.auxBytes_withMem h le_rfl

/-! ### The commands that read single bytes or a part of a region, inside it by their own checks -/

theorem curReadU8_withMem (h : s.SameRegion m .inp) : curReadU8 (s.withMem m) = curReadU8 s := by
  simp only [curReadU8, checkRegion_withMem, State.withMem_cur, State.withMem_len]
  by_cases hcur : s.cur.toNat ≥ s.len .inp
  · simp only [hcur, if_true]
  · simp only [hcur, if_false, State.inByte_withMem h (Nat.lt_of_not_le hcur)]

theorem curReadU16le_withMem (h : s.SameRegion m .inp) : curReadU16le (s.withMem m) = curReadU16le s := by
  simp only [curReadU16le, checkRegion_withMem, State.withMem_cur, State.withMem_avail]
  by_cases havail : s.avail < 2
  · simp only [havail, if_true]
  · have hlen : s.cur.toNat + 1 < s.len .inp := by
      rw [State.avail] at havail
      omega
    simp only [havail, if_false, State.inByte_withMem h hlen, State.inByte_withMem h (Nat.lt_of_succ_lt hlen)]

theorem curReadBytes_withMem (h : s.SameRegion m .inp) : curReadBytes (s.withMem m) = curReadBytes s := by
  simp only [curReadBytes, checkInOut_withMem, checkOutput_withMem, State.withMem_cur, State.withMem_avail,
    State.withMem_argCount]
  by_cases havail : s.avail < s.argCount
  · simp only [havail, if_true]
  · simp only [havail, if_false, State.inBytes_withMem h (Nat.le_of_not_lt havail)]

theorem hdrDecode_withMem (h : s.SameRegion m .inp) : hdrDecode (s.withMem m) = hdrDecode s := by
  simp only [hdrDecode, checkInOut_withMem, checkOutput_withMem, State.withMem_len]
  by_cases hlen : s.len .inp = 17
  · have hbyte (k : Nat) (hk : k < 17) : (s.withMem m).inByte k = s.inByte k := State.inByte_withMem h (hlen ▸ hk)
    have hname : (s.withMem m).inBytes 1 Config.nameLen = s.inBytes 1 Config.nameLen :=
      State.inBytes_withMem h (hlen ▸ (by decide : Config.nameLen ≤ 17 - 1))
    simp only [hname, hbyte, Nat.reduceLT]
  · have hrefused : s.len .inp ≠ Config.headerPayloadLen := hlen
    simp only [ne_eq, hrefused, not_false_eq_true, if_true]

theorem hdrEncode_withMem (h : s.SameRegion m .inp) : hdrEncode (s.withMem m) = hdrEncode s := by
  have hname : (s.withMem m).inBytes 0 (min (s.len .inp) Config.nameLen) = s.inBytes 0 (min (s.len .inp) Config.nameLen) :=
    State.inBytes_withMem h (Nat.min_le_left _ _)
  rw [hdrEncode, State.withMem_len, hname]
  rfl

theorem exportCmd_withMem (hin : s.SameRegion m .inp) (haux : s.SameRegion m .aux) :
    exportCmd (s.withMem m) = exportCmd s := by
  have hname : (s.withMem m).auxBytes 0 (min (s.len .aux) Config.nameLen) = s.auxBytes 0 (min (s.len .aux) Config.nameLen) :=
    State.auxBytes_withMem haux (Nat.min_le_left _ _)
  rw [exportCmd, State.inAll_withMem hin, State.withMem_len, hname]
  rfl

/-! ### The commands that read whole regions -/

theorem blkDecode_withMem (verify : Bool) (h : s.SameRegion m .inp) :
    blkDecode verify (s.withMem m) = blkDecode verify s := by
  rw [blkDecode, State.inAll_withMem h]
  rfl

theorem blkEncode_withMem (flag : Byte) (h : s.SameRegion m .inp) : blkEncode flag (s.withMem m) = blkEncode flag s := by
  rw [blkEncode, State.inAll_withMem h]
  rfl

theorem xorCsum_withMem (seed : Byte) (h : s.SameRegion m .inp) : xorCsum seed (s.withMem m) = xorCsum seed s := by
  rw [xorCsum, State.inAll_withMem h]
  rfl

theorem tapDecode_withMem (verify : Bool) (h : s.SameRegion m .inp) :
    tapDecode verify (s.withMem m) = tapDecode verify s := by
  rw [tapDecode, State.inAll_withMem h]
  rfl

theorem tapEncode_withMem (hin : s.SameRegion m .inp) (haux : s.SameRegion m .aux) :
    tapEncode (s.withMem m) = tapEncode s := by
  rw [tapEncode, State.inAll_withMem hin, State.auxAll_withMem haux]
  rfl

theorem sprUnpack_withMem (h : s.SameRegion m .inp) : sprUnpack (s.withMem m) = sprUnpack s := by
  rw [sprUnpack, State.inAll_withMem h]
  rfl

theorem sprPack_withMem (h : s.SameRegion m .inp) : sprPack (s.withMem m) = sprPack s := by
  rw [sprPack, State.inAll_withMem h]
  rfl

theorem layoutCmd_withMem (h : s.SameRegion m .inp) : layoutCmd (s.withMem m) = layoutCmd s := by
  rw [layoutCmd, State.inAll_withMem h]
  rfl

/-! ### Every command -/

/-- A command's result depends on MEM only through the input regions it uses. -/
theorem commandResult_withMem (i : Instr) (h : ∀ r, i.uses r = true → r ≠ .out → s.SameRegion m r) :
    commandResult i (s.withMem m) = commandResult i s := by
  cases i with
  | curOpen | curAtEnd | attrUnpack | attrPack => rfl
  | curReadU8 => exact curReadU8_withMem (h .inp rfl nofun)
  | curReadU16le => exact curReadU16le_withMem (h .inp rfl nofun)
  | curReadBytes => exact curReadBytes_withMem (h .inp rfl nofun)
  | blkDecode verify => exact blkDecode_withMem verify (h .inp rfl nofun)
  | blkEncode flag => exact blkEncode_withMem flag (h .inp rfl nofun)
  | xorCsum seed => exact xorCsum_withMem seed (h .inp rfl nofun)
  | hdrDecode => exact hdrDecode_withMem (h .inp rfl nofun)
  | hdrEncode => exact hdrEncode_withMem (h .inp rfl nofun)
  | tapDecode verify => exact tapDecode_withMem verify (h .inp rfl nofun)
  | tapEncode => exact tapEncode_withMem (h .inp rfl nofun) (h .aux rfl nofun)
  | sprUnpack => exact sprUnpack_withMem (h .inp rfl nofun)
  | sprPack => exact sprPack_withMem (h .inp rfl nofun)
  | layout => exact layoutCmd_withMem (h .inp rfl nofun)
  | exportTape => exact exportCmd_withMem (h .inp rfl nofun) (h .aux rfl nofun)

/-- A commit over two memories gives each byte the same value in both, or leaves it in both. -/
theorem State.committed_withMem (out : Option (List Byte)) (a : Nat) :
    ((s.committed out).read? a ≠ none ∧ ((s.withMem m).committed out).read? a = (s.committed out).read? a)
      ∨ ((s.committed out).read? a = s.mem.read? a ∧ ((s.withMem m).committed out).read? a = m.read? a) := by
  cases out with
  | none => exact .inr ⟨rfl, rfl⟩
  | some bytes =>
    rw [State.committed_some, State.committed_some, State.withMem_mem, State.withMem_base]
    by_cases hwritten : s.base .out ≤ a ∧ a < s.base .out + bytes.length
    · obtain ⟨hlow, hhigh⟩ := hwritten
      obtain ⟨k, rfl⟩ := Nat.exists_eq_add_of_le hlow
      have hk : k < bytes.length := by omega
      rw [Memory.read?_writeBytes_inside _ _ _ _ hk, Memory.read?_writeBytes_inside _ _ _ _ hk,
        List.getElem?_eq_getElem hk]
      exact .inl ⟨nofun, rfl⟩
    · have houtside : a < s.base .out ∨ s.base .out + bytes.length ≤ a := by omega
      exact .inr ⟨Memory.read?_writeBytes_outside _ _ _ _ houtside, Memory.read?_writeBytes_outside _ _ _ _ houtside⟩

end

/-- Settles O13: the two runs settle one result, and a commit writes the same bytes into both memories. -/
theorem commandsReadOnlyTheirInputRegions : Obligations.CommandsReadOnlyTheirInputRegions := by
  intro i s t m hsame h
  have hrun : exec i (s.withMem m) = .next ((s.withMem m).settle (commandResult i s)) := by
    rw [exec_eq_settle, commandResult_withMem i fun r huses hne a => hsame r a huses hne]
  refine ⟨_, hrun, ?_⟩
  obtain ⟨f, hok, rfl⟩ | ⟨e, herror, rfl⟩ := exec_cases i s t h
  · rw [hok]
    exact ⟨rfl, State.committed_withMem _⟩
  · rw [herror]
    exact ⟨rfl, fun _ => .inr ⟨rfl, rfl⟩⟩

end Sys2Proof.Machine
end

section
/-! The host's accesses to MEM (20_memory R55, R61, 70_reset R267). -/

namespace Sys2Proof.Machine

/-! ## Writes -/

theorem State.hostMemWrite_inside (s : State) {a : Nat} (b : Byte) (ha : a < s.memSize) :
    s.hostMemWrite a b = { s with mem := s.mem.write a b, disturbed := s.disturbed || s.inAnyUsedRegion a } :=
  if_pos ha

theorem State.hostMemWrite_beyond (s : State) {a : Nat} (b : Byte) (ha : s.memSize ≤ a) : s.hostMemWrite a b = s :=
  if_neg (by omega)

theorem State.inAnyUsedRegion_idle (s : State) (a : Nat) (hidle : s.pending = none) : s.inAnyUsedRegion a = false := by
  by_contra h
  have hbusy := s.busy_of_inAnyUsedRegion a (by simpa using h)
  simp [State.busy, hidle] at hbusy

/-! ## Reads -/

theorem State.hostMemValue_beyond (s : State) {a : Nat} (ha : s.memSize ≤ a) : s.hostMemValue a = 0 :=
  if_neg (by omega)

theorem State.outsideRunningOut_of_idle (s : State) (a : Nat) (hidle : s.pending = none) : s.OutsideRunningOut a := by
  intro w i hpending
  rw [hidle] at hpending
  cases hpending

theorem State.inUsedRegion_out (s : State) {a : Nat} (ha : s.OutsideRunningOut a) : s.inUsedRegion .out a = false := by
  cases hpending : s.pending with
  | none => simp [State.inUsedRegion, State.pendingInstr, hpending]
  | some w =>
    cases hdecode : decode w with
    | error e => simp [State.inUsedRegion, State.pendingInstr, hpending, hdecode]
    | ok i =>
      have hoff : i.uses .out = true → s.inRegion .out a = false := fun huses => by
        have := ha w i hpending hdecode huses
        simp only [State.inRegion, Bool.and_eq_false_iff, decide_eq_false_iff_not]
        omega
      simpa [State.inUsedRegion, State.pendingInstr, hpending, hdecode] using hoff

/-- A written byte outside the running command's OUT reads as written. -/
theorem State.hostMemValue_written (s : State) {a : Nat} {b : Byte} (ha : a < s.memSize) (hout : s.OutsideRunningOut a)
    (hb : s.mem.read? a = some b) : s.hostMemValue a = b := by
  simp [State.hostMemValue, ha, s.inUsedRegion_out hout, hb]

/-! ## After a command -/

theorem exec_pending {i : Instr} {s t : State} (h : exec i s = .next t) : t.pending = none := by
  obtain ⟨f, -, rfl⟩ | ⟨e, -, rfl⟩ := exec_cases i s t h <;> rfl

theorem exec_memSize {i : Instr} {s t : State} (h : exec i s = .next t) : t.memSize = s.memSize := by
  obtain ⟨f, -, rfl⟩ | ⟨e, -, rfl⟩ := exec_cases i s t h <;> rfl

/-- A byte that a command has put in OUT reads back once the command has ended. -/
theorem exec_hostMemValue_out {i : Instr} {s t : State} {out : List Byte} {k : Nat} {b : Byte} (h : exec i s = .next t)
    (hout : s.WroteOut t.mem out) (hk : out[k]? = some b) (hsize : s.outBase.toNat + k < s.memSize) :
    t.hostMemValue (s.outBase.toNat + k) = b := by
  obtain ⟨hinside, -⟩ := hout
  obtain ⟨hlength, -⟩ := List.getElem?_eq_some_iff.mp hk
  refine t.hostMemValue_written ?_ (t.outsideRunningOut_of_idle _ (exec_pending h)) ?_
  · rwa [exec_memSize h]
  · rw [hinside k hlength, hk]

/-- Settles O52: a write below MEM_SIZE is one byte written, and a known byte outside a running OUT reads as written. -/
theorem hostMemAccesses : Obligations.HostMemAccesses := by
  intro s a b
  refine ⟨fun ha => ?write, fun ha hout => ?readBack, fun ha => ?beyond, fun i t out k h hwrote hk hsize => ?committed⟩
  case write =>
    rw [s.hostMemWrite_inside b ha]
    exact ⟨fun x => s.mem.read?_write a x b, rfl, fun hidle => by simp [s.inAnyUsedRegion_idle a hidle]⟩
  case readBack =>
    refine ⟨?_, s.hostMemValue_written ha hout⟩
    rw [s.hostMemWrite_inside b ha]
    exact State.hostMemValue_written _ ha hout (by rw [Memory.read?_write, if_pos rfl])
  case beyond => exact ⟨s.hostMemWrite_beyond b ha, s.hostMemValue_beyond ha⟩
  case committed => exact exec_hostMemValue_out h hwrote hk hsize

end Sys2Proof.Machine
end

section
/-! The command word (30_encoding R70 to R75): its three fields determine it, so decoding inverts encoding both ways, and a row
of the opcode table accepts exactly the words with its opcode, RSV = 0 and an immediate its format allows. -/

namespace Sys2Proof

open Machine

/-! ## The fields of a word (30_encoding R71) -/

/-- Two neighbouring bit fields of a word are one. -/
theorem extractLsb'_append_next (w : Word) (start len next : Nat) :
    w.extractLsb' (start + len) next ++ w.extractLsb' start len = w.extractLsb' start (next + len) :=
  BitVec.extractLsb'_append_extractLsb'_eq_extractLsb' rfl

/-- A word is its fields, RSV first. -/
theorem rsvField_append_immField_append_opcField (w : Word) : rsvField w ++ (immField w ++ opcField w) = w := by
  rw [rsvField, immField, opcField, extractLsb'_append_next w 0 8 8, extractLsb'_append_next w 0 16 16]
  exact BitVec.extractLsb'_eq_self

theorem word_eq_iff_fields (v w : Word) :
    v = w ↔ rsvField v = rsvField w ∧ immField v = immField w ∧ opcField v = opcField w := by
  refine ⟨fun h => h ▸ ⟨rfl, rfl, rfl⟩, fun ⟨hrsv, himm, hopc⟩ => ?_⟩
  rw [← rsvField_append_immField_append_opcField v, hrsv, himm, hopc, rsvField_append_immField_append_opcField]

theorem rsvField_and (v w : Word) : rsvField (v &&& w) = rsvField v &&& rsvField w := BitVec.extractLsb'_and

theorem immField_and (v w : Word) : immField (v &&& w) = immField v &&& immField w := BitVec.extractLsb'_and

theorem opcField_and (v w : Word) : opcField (v &&& w) = opcField v &&& opcField w := BitVec.extractLsb'_and

/-- The word of an opcode and an immediate has RSV = 0 (30_encoding R89). -/
theorem commandWord_eq_append (opc imm : Byte) : commandWord opc imm = 0#16 ++ (imm ++ opc) := by
  rw [commandWord, ← BitVec.setWidth_append_eq_shiftLeft_setWidth_or, BitVec.setWidth_eq_append (by decide)]
  exact BitVec.cast_eq _ _

@[simp] theorem rsvField_commandWord (opc imm : Byte) : rsvField (commandWord opc imm) = 0 := by
  rw [commandWord_eq_append]
  exact BitVec.extractLsb'_append_eq_left

@[simp] theorem immField_commandWord (opc imm : Byte) : immField (commandWord opc imm) = imm := by
  rw [commandWord_eq_append, immField, BitVec.extractLsb'_append_eq_of_add_le (by decide)]
  exact BitVec.extractLsb'_append_eq_left

@[simp] theorem opcField_commandWord (opc imm : Byte) : opcField (commandWord opc imm) = opc := by
  rw [commandWord_eq_append, opcField, BitVec.extractLsb'_append_eq_of_add_le (by decide)]
  exact BitVec.extractLsb'_append_eq_right

/-- A word with RSV = 0 is the word of its opcode and its immediate. -/
theorem commandWord_of_fields (w : Word) (hrsv : rsvField w = 0) : commandWord (opcField w) (immField w) = w := by
  simp [word_eq_iff_fields, hrsv]

/-! ## Decoding inverts encoding (30_encoding R74, R75) -/

theorem decodeC0_eq_ok {imm : Byte} {i j : Instr} : decodeC0 imm i = .ok j ↔ imm = 0 ∧ i = j := by
  rw [decodeC0]
  split_ifs with h
  · simp [h]
  · exact ⟨nofun, fun ⟨himm, _⟩ => absurd himm h⟩

/-- VERIFY alone makes the immediate of a CV command: its other bits are 0. -/
theorem verify_imm_iff : ∀ (imm : Byte) (v : Bool),
    (imm.extractLsb' 1 7 = 0 ∧ imm.getLsbD 0 = v) ↔ (if v then 1 else 0) = imm := by
  decide

theorem decodeCV_eq_ok {imm : Byte} {mk : Bool → Instr} {j : Instr} :
    decodeCV imm mk = .ok j ↔ ∃ v, mk v = j ∧ (if v then 1 else 0) = imm := by
  simp only [← verify_imm_iff]
  rw [decodeCV]
  split_ifs with h
  · simp [h]
  · exact ⟨nofun, fun ⟨_, _, himm, _⟩ => absurd himm h⟩

/-- The opcode and the immediate of a command decode to it. -/
theorem decodeFields_opc_imm (i : Instr) : decodeFields i.opc i.imm = .ok i := by
  cases i with
  | blkDecode verify | tapDecode verify => cases verify <;> rfl
  | _ => rfl

/-- Only the opcode and the immediate of a command decode to it. -/
theorem decodeFields_ok {opc imm : Byte} {i : Instr} (h : decodeFields opc imm = .ok i) : i.opc = opc ∧ i.imm = imm := by
  have hopc {b : Byte} (hb : opc.toNat = b.toNat) : b = opc := (BitVec.eq_of_toNat_eq hb).symm
  unfold decodeFields at h
  split at h
  case h_6 hb | h_11 hb =>
    obtain ⟨v, rfl, rfl⟩ := decodeCV_eq_ok.mp h
    exact ⟨hopc hb, rfl⟩
  case h_7 hb | h_8 hb =>
    cases h
    exact ⟨hopc hb, rfl⟩
  case h_19 => cases h
  all_goals
    rename_i hb
    obtain ⟨rfl, rfl⟩ := decodeC0_eq_ok.mp h
    exact ⟨hopc hb, rfl⟩

/-- A word decodes to a command exactly when it is that command's word. -/
theorem decode_eq_ok_iff (w : Word) (i : Instr) : decode w = .ok i ↔ encode i = w := by
  constructor
  · intro h
    by_cases hrsv : rsvField w = 0
    · rw [decode, if_pos hrsv] at h
      obtain ⟨hopc, himm⟩ := decodeFields_ok h
      rw [encode, hopc, himm, commandWord_of_fields w hrsv]
    · rw [decode, if_neg hrsv] at h
      cases h
  · rintro rfl
    simp [decode, encode, decodeFields_opc_imm]

theorem decode_encode (i : Instr) : decode (encode i) = .ok i := (decode_eq_ok_iff _ i).mpr rfl

/-- The four byte lanes of a word make up the word (20_memory R53). -/
theorem ofLanes_lane (w : Word) : ofLanes (lane w 0) (lane w 1) (lane w 2) (lane w 3) = w := by
  simp only [ofLanes, lane, Nat.reduceMul]
  rw [extractLsb'_append_next w 16 8 8, extractLsb'_append_next w 8 8 16, extractLsb'_append_next w 0 8 24]
  exact BitVec.extractLsb'_eq_self

theorem decodeBytes_lanes (w : Word) : decodeBytes (lanes w) = decode w := congrArg decode (ofLanes_lane w)

/-- Settles O1: decoding inverts encoding, and the byte lanes of a word are the word. -/
theorem everyCommandDecodesFromItsEncoding : Obligations.EveryCommandDecodesFromItsEncoding :=
  fun i _ => ⟨decode_encode i, (decodeBytes_lanes (encode i)).trans (decode_encode i)⟩

/-- Settles O2: a word that decodes to a command is that command's word. -/
theorem aDecodedWordIsItsCommandsEncoding : Obligations.ADecodedWordIsItsCommandsEncoding :=
  fun w i => (decode_eq_ok_iff w i).mp

/-- Settles O4: each word is the encoding of its command. -/
theorem specWordsDecodeAsWritten : Obligations.SpecWordsDecodeAsWritten :=
  ⟨decode_encode .curReadBytes, decode_encode (.blkDecode true), decode_encode (.blkEncode 0xFF), decode_encode (.xorCsum 7),
    decode_encode .hdrEncode, decode_encode (.tapDecode true), decode_encode .sprPack, decode_encode .layout,
    decode_encode .exportTape⟩

/-! ## The opcode table (30_encoding R74) -/

/-- The bits of IMM8 that a format requires to be 0 (30_encoding R71). -/
def Format.zeroBits : Format → Byte
  | .c0 => 0xFF
  | .cv => 0xFE
  | .ci => 0x00

/-- The pattern and the mask of a row say: RSV = 0, the row's opcode, and the format's bits of IMM8 are 0. -/
theorem opcodeTable_columns : ∀ r ∈ opcodeTable, r.pattern = commandWord r.opc 0
    ∧ rsvField r.mask = BitVec.allOnes 16 ∧ immField r.mask = r.format.zeroBits ∧ opcField r.mask = BitVec.allOnes 8 := by
  decide

/-- No opcode has two rows. -/
theorem opcodeTable_opc_nodup : (opcodeTable.map OpcodeRow.opc).Nodup := by decide

/-- The words a row accepts (30_encoding R71, R74). -/
theorem row_accepts_iff {r : OpcodeRow} (hr : r ∈ opcodeTable) (w : Word) : w &&& r.mask = r.pattern ↔
    rsvField w = 0 ∧ immField w &&& r.format.zeroBits = 0 ∧ opcField w = r.opc := by
  obtain ⟨hpattern, hrsv, himm, hopc⟩ := opcodeTable_columns r hr
  rw [word_eq_iff_fields, rsvField_and, immField_and, opcField_and, hrsv, himm, hopc, BitVec.and_allOnes, BitVec.and_allOnes,
    hpattern, rsvField_commandWord, immField_commandWord, opcField_commandWord]

/-- No word is accepted by two rows. -/
theorem row_unique {r r' : OpcodeRow} (hr : r ∈ opcodeTable) (hr' : r' ∈ opcodeTable) (w : Word)
    (h : w &&& r.mask = r.pattern) (h' : w &&& r'.mask = r'.pattern) : r = r' := by
  obtain ⟨-, -, hopc⟩ := (row_accepts_iff hr w).mp h
  obtain ⟨-, -, hopc'⟩ := (row_accepts_iff hr' w).mp h'
  exact List.inj_on_of_nodup_map opcodeTable_opc_nodup hr hr' (hopc.symm.trans hopc')

/-- Every command's word is accepted by the row of its mnemonic. -/
theorem encodesItsTableRow (i : Instr) : ∃ r ∈ opcodeTable, r.mnemonic = i.mnemonic ∧ encode i &&& r.mask = r.pattern := by
  have h : Laws.EncodesItsTableRow.Statement i := by
    cases i with
    | curOpen => exact Laws.EncodesItsTableRow.curOpen
    | curReadU8 => exact Laws.EncodesItsTableRow.curReadU8
    | curReadU16le => exact Laws.EncodesItsTableRow.curReadU16le
    | curReadBytes => exact Laws.EncodesItsTableRow.curReadBytes
    | curAtEnd => exact Laws.EncodesItsTableRow.curAtEnd
    | blkDecode verify => exact Laws.EncodesItsTableRow.blkDecode verify
    | blkEncode flag => exact Laws.EncodesItsTableRow.blkEncode flag
    | xorCsum seed => exact Laws.EncodesItsTableRow.xorCsum seed
    | hdrDecode => exact Laws.EncodesItsTableRow.hdrDecode
    | hdrEncode => exact Laws.EncodesItsTableRow.hdrEncode
    | tapDecode verify => exact Laws.EncodesItsTableRow.tapDecode verify
    | tapEncode => exact Laws.EncodesItsTableRow.tapEncode
    | sprUnpack => exact Laws.EncodesItsTableRow.sprUnpack
    | sprPack => exact Laws.EncodesItsTableRow.sprPack
    | attrUnpack => exact Laws.EncodesItsTableRow.attrUnpack
    | attrPack => exact Laws.EncodesItsTableRow.attrPack
    | layout => exact Laws.EncodesItsTableRow.layout
    | exportTape => exact Laws.EncodesItsTableRow.exportTape
  obtain ⟨r, hr, hmnemonic, -, haccepts⟩ := h
  exact ⟨r, hr, hmnemonic, beq_iff_eq.mp haccepts⟩

/-- An immediate that a CV command allows is its VERIFY bit. -/
theorem verify_of_zeroBits : ∀ imm : Byte, imm &&& 0xFE = 0 → (if imm.getLsbD 0 then 1 else 0) = imm := by decide

/-- Every opcode of the table, with an immediate its format allows, is some command's. -/
theorem exists_command_of_row (imm : Byte) :
    ∀ r ∈ opcodeTable, imm &&& r.format.zeroBits = 0 → ∃ i : Instr, i.opc = r.opc ∧ i.imm = imm := by
  have c0 (i : Instr) (hi : i.imm = 0) (h : imm &&& 0xFF = 0) : ∃ j : Instr, j.opc = i.opc ∧ j.imm = imm :=
    ⟨i, rfl, hi.trans (h.symm.trans BitVec.and_allOnes)⟩
  simp only [opcodeTable, List.forall_mem_cons]
  exact ⟨c0 .curOpen rfl, c0 .curReadU8 rfl, c0 .curReadU16le rfl, c0 .curReadBytes rfl, c0 .curAtEnd rfl,
    fun h => ⟨.blkDecode _, rfl, verify_of_zeroBits imm h⟩, fun _ => ⟨.blkEncode imm, rfl, rfl⟩,
    fun _ => ⟨.xorCsum imm, rfl, rfl⟩, c0 .hdrDecode rfl, c0 .hdrEncode rfl,
    fun h => ⟨.tapDecode _, rfl, verify_of_zeroBits imm h⟩, c0 .tapEncode rfl, c0 .sprUnpack rfl, c0 .sprPack rfl,
    c0 .attrUnpack rfl, c0 .attrPack rfl, c0 .layout rfl, c0 .exportTape rfl, by simp⟩

/-- A word decodes exactly when a row accepts it. -/
theorem decodes_iff_row_accepts (w : Word) :
    (∃ i, decode w = .ok i) ↔ ∃ r ∈ opcodeTable, w &&& r.mask = r.pattern := by
  simp only [decode_eq_ok_iff]
  constructor
  · rintro ⟨i, rfl⟩
    obtain ⟨r, hr, -, haccepts⟩ := encodesItsTableRow i
    exact ⟨r, hr, haccepts⟩
  · rintro ⟨r, hr, haccepts⟩
    obtain ⟨hrsv, himm, hopc⟩ := (row_accepts_iff hr w).mp haccepts
    obtain ⟨i, hiopc, hiimm⟩ := exists_command_of_row (immField w) r hr himm
    exact ⟨i, by rw [encode, hiopc, hiimm, ← hopc, commandWord_of_fields w hrsv]⟩

/-- Settles O3: the row that accepts a command's word bears its mnemonic, and no other row accepts that word. -/
theorem aWordDecodesExactlyWhenATableRowAcceptsIt : Obligations.AWordDecodesExactlyWhenATableRowAcceptsIt := by
  refine ⟨decodes_iff_row_accepts, fun w i h r hr haccepts => ?mnemonic, fun w r hr r' hr' => row_unique hr hr' w⟩
  case mnemonic =>
    rw [← (decode_eq_ok_iff w i).mp h] at haccepts
    obtain ⟨own, hown, hmnemonic, hownAccepts⟩ := encodesItsTableRow i
    rw [row_unique hr hown _ haccepts hownAccepts, hmnemonic]

/-! ## A word that no row accepts (30_encoding R75) -/

theorem decode_error_of_no_row {w : Word} (h : ∀ r ∈ opcodeTable, w &&& r.mask ≠ r.pattern) :
    ∃ e, decode w = .error e := by
  cases hdecode : decode w with
  | error e => exact ⟨e, rfl⟩
  | ok i =>
    obtain ⟨r, hr, haccepts⟩ := (decodes_iff_row_accepts w).mp ⟨i, hdecode⟩
    exact absurd haccepts (h r hr)

/-- The engine aborts a pending word that is no command (60_exceptions R234). -/
theorem engineStep_illegal {s : State} {w : Word} {e : DecodeError} (hpending : s.pending = some w)
    (hdecode : decode w = .error e) : engineStep s = .next (s.aborted 6 w.toNat) := by
  simp only [engineStep, hpending, hdecode, State.abort_eq_aborted]
  rfl

/-- A step on an empty schedule while a command is pending is the engine's (log 9). -/
theorem step_unscheduled_pending {s : State} {w : Word} (hturns : s.turns = []) (hpending : s.pending = some w) :
    step s = engineStep s := by
  rw [step, nextTurn, hturns]
  simp [State.defaultTurn, State.busy, hpending, takeTurn]

theorem step_engine {s : State} {rest : List Turn} (hturns : s.turns = .engine :: rest) :
    step s = engineStep { s with turns := rest } := by
  rw [step, nextTurn, hturns]
  rfl

/-- ERRINFO records a register-sized value exactly (60_exceptions R232). -/
theorem aborted_errinfo_of_word (s : State) (code : Byte) (w : Word) : (s.aborted code w.toNat).errinfo = w := by
  have hfits : min w.toNat 0xFFFFFFFF = w.toNat := by have := w.isLt; omega
  simp [State.aborted, hfits]

/-- Settles O5: a word that no row accepts does not decode, and the engine's turn then aborts. -/
theorem unmatchedWordsRaiseIllegalCommand : Obligations.UnmatchedWordsRaiseIllegalCommand := by
  intro s w hpending hnone
  obtain ⟨e, hdecode⟩ := decode_error_of_no_row hnone
  exact ⟨fun hturns => (step_unscheduled_pending hturns hpending).trans (engineStep_illegal hpending hdecode),
    fun rest hturns => (step_engine hturns).trans (engineStep_illegal hpending hdecode), aborted_errinfo_of_word s 6 w⟩

end Sys2Proof
end

section
/-! The pseudo-statements of the host's assembler (30_encoding R91). -/

namespace Sys2Proof.Machine

/-- Statements with the same lines assemble alike wherever they stand in a program: `assemble` sees only lines. -/
theorem assemble_replace (before after old new : List Stmt) (h : old.flatMap linesOf = new.flatMap linesOf) :
    assemble (before ++ old ++ after) = assemble (before ++ new ++ after) := by
  simp only [assemble, List.flatMap_append, h]

/-- Settles O57: a pseudo-statement and its expansion have the same lines. -/
theorem pseudoStatementsExpand : Obligations.PseudoStatementsExpand := by
  intro before after c b l
  have expands (pseudo : Stmt) (expansion : List Stmt) (h : [pseudo].flatMap linesOf = expansion.flatMap linesOf) :
      assemble (before ++ [pseudo] ++ after) = assemble (before ++ expansion ++ after) :=
    assemble_replace before after _ _ h
  exact ⟨expands (.run c) _ rfl, expands (.region .inp b l) _ rfl, expands (.region .aux b l) _ rfl,
    expands (.region .out b l) _ rfl, expands (.command .blkEncodeHdr) _ rfl, expands (.command .blkEncodeData) _ rfl,
    expands (.command .xorCsumBare) _ rfl⟩

end Sys2Proof.Machine
end

section
/-! The regions a command uses (30_encoding R79): a command's result and its commit do not depend on the registers of a region
it does not use. -/

namespace Sys2Proof.Machine

/-! ## Which regions a command uses -/

theorem uses_inp_eq_false_iff (i : Instr) :
    i.uses .inp = false ↔ i ∈ [.curOpen, .curAtEnd, .attrUnpack, .attrPack] := by
  cases i <;> simp [Instr.uses]

theorem uses_aux_iff (i : Instr) : i.uses .aux = true ↔ i ∈ [.tapEncode, .exportTape] := by
  cases i <;> simp [Instr.uses]

theorem uses_out_eq_false_iff (i : Instr) : i.uses .out = false ↔
    i ∈ [.curOpen, .curAtEnd, .attrUnpack, .attrPack, .curReadU8, .curReadU16le, .layout] ∨ ∃ seed, i = .xorCsum seed := by
  cases i <;> simp [Instr.uses]

/-! ## Other values in the registers of one region -/

/-- The state with another base and length for one region (10_state R27). -/
def State.withRegion (s : State) (r : RegionId) (b l : Word) : State :=
  match r with
  | .inp => { s with inBase := b, inLen := l }
  | .aux => { s with auxBase := b, auxLen := l }
  | .out => { s with outBase := b, outLen := l }

section
variable (s : State) (b l : Word)

/-- What a command reads at an address does not depend on any region register. -/
theorem State.lookBytes_withRegion (r : RegionId) (a n : Nat) : (s.withRegion r b l).lookBytes a n = s.lookBytes a n :=
  State.lookBytes_congr _ _ a n fun _ _ _ => by cases r <;> rfl

theorem State.inBytes_withAux (a n : Nat) : (s.withRegion .aux b l).inBytes a n = s.inBytes a n :=
  s.lookBytes_withRegion b l .aux _ n

theorem State.inAll_withAux : (s.withRegion .aux b l).inAll = s.inAll := s.inBytes_withAux b l 0 _

theorem State.inAll_withOut : (s.withRegion .out b l).inAll = s.inAll := s.lookBytes_withRegion b l .out _ _

/-! ## The result of a command -/

/-- A command that does not use AUX gives the same result with any AUX registers. -/
theorem commandResult_withAux {i : Instr} (h : i.uses .aux = false) :
    commandResult i (s.withRegion .aux b l) = commandResult i s := by
  cases i with
  | curOpen | curAtEnd | attrUnpack | attrPack => rfl
  | curReadU8 | curReadU16le => rfl
  | curReadBytes | hdrDecode | hdrEncode =>
    simp only [commandResult, curReadBytes, hdrDecode, hdrEncode, State.inBytes_withAux]
    rfl
  | blkDecode _ | blkEncode _ | xorCsum _ | tapDecode _ | sprUnpack | sprPack | layout =>
    simp only [commandResult, blkDecode, blkEncode, xorCsum, tapDecode, sprUnpack, sprPack, layoutCmd, State.inAll_withAux]
    rfl
  | tapEncode | exportTape => cases h

/-- A command that does not use OUT gives the same result with any OUT registers. -/
theorem commandResult_withOut {i : Instr} (h : i.uses .out = false) :
    commandResult i (s.withRegion .out b l) = commandResult i s := by
  cases i with
  | curOpen | curAtEnd | attrUnpack | attrPack => rfl
  | curReadU8 | curReadU16le => rfl
  | xorCsum _ | layout =>
    simp only [commandResult, xorCsum, layoutCmd, State.inAll_withOut]
    rfl
  | curReadBytes | blkDecode _ | blkEncode _ | hdrDecode | hdrEncode | tapDecode _ | tapEncode => cases h
  | sprUnpack | sprPack | exportTape => cases h

/-- A command that does not use IN gives the same result with any IN registers, but CUR_AT_END reads IN_LEN (40_cursor R105). -/
theorem commandResult_withIn {i : Instr} (h : i.uses .inp = false) (hlen : i = .curAtEnd → l = s.inLen) :
    commandResult i (s.withRegion .inp b l) = commandResult i s := by
  cases i with
  | curOpen | attrUnpack | attrPack => rfl
  | curAtEnd =>
    rw [hlen rfl]
    rfl
  | curReadU8 | curReadU16le | curReadBytes | blkDecode _ | blkEncode _ | xorCsum _ | hdrDecode | hdrEncode => cases h
  | tapDecode _ | tapEncode | sprUnpack | sprPack | layout | exportTape => cases h

/-- A command's result does not depend on the registers of a region it does not use. -/
theorem commandResult_withRegion {i : Instr} {r : RegionId} (h : i.uses r = false)
    (hlen : r = .inp → i = .curAtEnd → l = s.inLen) : commandResult i (s.withRegion r b l) = commandResult i s := by
  cases r with
  | inp => exact commandResult_withIn s b l h (hlen rfl)
  | aux => exact commandResult_withAux s b l h
  | out => exact commandResult_withOut s b l h

end

/-! ## The end of a command -/

theorem State.apply_withOut (s : State) (b l : Word) {f : Effect} (h : f.out = none) :
    (s.withRegion .out b l).apply f = (s.apply f).withRegion .out b l := by
  simp only [State.apply, h, State.committed_none, State.withRegion]

/-- A success is the same with other registers of a region, except that OUT_BASE says where an output goes. -/
theorem State.finish_withRegion (s : State) (r : RegionId) (b l : Word) (f : Effect) (hout : r = .out → f.out = none) :
    (s.withRegion r b l).finish f = (s.finish f).withRegion r b l := by
  cases r with
  | inp | aux => rfl
  | out =>
    refine s.apply_withOut b l ?_
    split_ifs
    · rw [Effect.scrambled, hout rfl]
      rfl
    · exact hout rfl

/-- A command does the same with any registers of a region it does not use. -/
theorem exec_withRegion {i : Instr} {s t : State} {r : RegionId} {b l : Word} (h : exec i s = .next t)
    (hunused : i.uses r = false) (hlen : r = .inp → i = .curAtEnd → l = s.inLen) : exec i (s.withRegion r b l) = .next (t.withRegion r b l) := by
  rw [exec_eq_settle] at h ⊢
  cases h
  rw [commandResult_withRegion s b l hunused hlen]
  cases hresult : commandResult i s with
  | ok f =>
    rw [State.settle_ok, State.settle_ok, s.finish_withRegion r b l f]
    rintro rfl
    exact commandResult_out_eq_none hunused hresult
  | error e => cases r <;> rfl

theorem exec_inBase {i : Instr} {s t : State} (h : exec i s = .next t) : t.inBase = s.inBase := by
  obtain ⟨f, -, rfl⟩ | ⟨e, -, rfl⟩ := exec_cases i s t h <;> rfl

theorem exec_inLen {i : Instr} {s t : State} (h : exec i s = .next t) : t.inLen = s.inLen := by
  obtain ⟨f, -, rfl⟩ | ⟨e, -, rfl⟩ := exec_cases i s t h <;> rfl

/-- Settles O14: which region each command uses, and each clause as other values for the registers of one region. -/
theorem unusedRegionRegistersAreIgnored : Obligations.UnusedRegionRegistersAreIgnored := by
  refine ⟨fun i => ⟨uses_inp_eq_false_iff i, uses_aux_iff i, uses_out_eq_false_iff i⟩, fun i s t b l h => ?_⟩
  refine ⟨fun haux => ?aux, fun hout => ?out, fun hin => ?inBase, fun hin hne => ?inLen⟩
  case aux => exact exec_withRegion (r := .aux) h haux nofun
  case out => exact exec_withRegion (r := .out) h hout nofun
  case inBase =>
    have hkeep : t.withRegion .inp b s.inLen = { t with inBase := b } := by
      rw [← exec_inLen h]
      rfl
    exact hkeep ▸ exec_withRegion (r := .inp) h hin fun _ _ => rfl
  case inLen =>
    have hkeep : t.withRegion .inp s.inBase l = { t with inLen := l } := by
      rw [← exec_inBase h]
      rfl
    exact hkeep ▸ exec_withRegion (r := .inp) h hin fun _ heq => absurd heq hne

end Sys2Proof.Machine
end

section
/-! The block table (30_encoding R83): where its count, entries and payloads stand. -/

namespace Sys2Proof.Machine

/-! ## Little-endian fields (20_memory R52) -/

theorem ofNat_mod_256 (n : Nat) : BitVec.ofNat 8 (n % 256) = BitVec.ofNat 8 n :=
  BitVec.eq_of_toNat_eq (by simp)

theorem le16_eq_digits (v : Nat) : le16 v = [BitVec.ofNat 8 (v % 256), BitVec.ofNat 8 (v / 256 % 256)] := by
  simp only [le16, ofNat_mod_256, Nat.shiftRight_eq_div_pow, Nat.reducePow]

theorem le32_eq_digits (v : Nat) : le32 v = [BitVec.ofNat 8 (v % 256), BitVec.ofNat 8 (v / 256 % 256),
    BitVec.ofNat 8 (v / 65536 % 256), BitVec.ofNat 8 (v / 16777216 % 256)] := by
  simp only [le32, ofNat_mod_256, Nat.shiftRight_eq_div_pow, Nat.reducePow]

/-! ## Entries and payloads -/

/-- Entry k stands 12k bytes after the first, and names the payload that follows those of the blocks before it. -/
theorem blockEntries_entry {bs : List Block} {k : Nat} {b : Block} (start : Nat) (h : bs[k]? = some b) :
    ((blockEntries bs start).drop (12 * k)).take 12
      = blockEntry b (start + ((bs.take k).map (fun c => c.payload.length)).sum) := by
  induction bs generalizing k start with
  | nil => simp at h
  | cons c bs ih =>
    cases k with
    | zero =>
      obtain rfl : c = b := by simpa using h
      simp only [blockEntries, Nat.mul_zero, List.drop_zero, List.take_zero, List.map_nil, List.sum_nil, Nat.add_zero]
      exact List.take_left' (blockEntry_length c start)
    | succ k =>
      have hdrop : (blockEntries (c :: bs) start).drop (12 * (k + 1))
          = (blockEntries bs (start + c.payload.length)).drop (12 * k) := by
        rw [blockEntries, Nat.mul_succ, Nat.add_comm, ← List.drop_drop, List.drop_left' (blockEntry_length c start)]
      rw [hdrop, ih _ (by simpa using h)]
      simp [Nat.add_assoc]

/-- Payload k follows the payloads before it. -/
theorem payloads_payload {bs : List Block} {k : Nat} {b : Block} (h : bs[k]? = some b) :
    ((bs.flatMap Block.payload).drop ((bs.take k).map (fun c => c.payload.length)).sum).take b.payload.length
      = b.payload := by
  induction bs generalizing k with
  | nil => simp at h
  | cons c bs ih =>
    cases k with
    | zero =>
      obtain rfl : c = b := by simpa using h
      simp
    | succ k => simpa [← List.drop_drop] using ih (k := k) (by simpa using h)

/-! ## The image -/

theorem blockTable_count (bs : List Block) : (blockTable bs).take 4 = le32 bs.length := by
  rw [blockTable, List.append_assoc, List.take_left' (le32_length _)]

/-- Past the count stand the entries, and past them the payloads. -/
theorem blockTable_drop_count (bs : List Block) : (blockTable bs).drop 4
    = blockEntries bs (4 + 12 * bs.length) ++ bs.flatMap Block.payload := by
  rw [blockTable, List.append_assoc, List.drop_left' (le32_length _)]

theorem blockTable_entry {bs : List Block} {k : Nat} {b : Block} (h : bs[k]? = some b) :
    ((blockTable bs).drop (4 + 12 * k)).take 12
      = blockEntry b (4 + 12 * bs.length + ((bs.take k).map (fun c => c.payload.length)).sum) := by
  obtain ⟨hk, -⟩ := List.getElem?_eq_some_iff.mp h
  have hentry : 12 ≤ ((blockEntries bs (4 + 12 * bs.length)).drop (12 * k)).length := by simp; omega
  rw [← List.drop_drop, blockTable_drop_count, List.drop_append_of_le_length (by simp; omega),
    List.take_append_of_le_length hentry, blockEntries_entry _ h]

theorem blockTable_payload {bs : List Block} {k : Nat} {b : Block} (h : bs[k]? = some b) :
    ((blockTable bs).drop (4 + 12 * bs.length + ((bs.take k).map (fun c => c.payload.length)).sum)).take b.payload.length
      = b.payload := by
  have hdrop : (blockTable bs).drop (4 + 12 * bs.length) = bs.flatMap Block.payload := by
    rw [← List.drop_drop, blockTable_drop_count, List.drop_left' (blockEntries_length bs _)]
  rw [← List.drop_drop, hdrop, payloads_payload h]

/-- Settles O30: the count, the entries and the payloads stand one after another. -/
theorem blockTableLayout : Obligations.BlockTableLayout := by
  rintro bs n rfl
  refine ⟨by rw [blockTable_length, List.length_flatMap], ?count, fun k b off hb hoff => ⟨?entry, ?payload⟩⟩
  case count => rw [blockTable_count, le32_eq_digits]
  case entry =>
    rw [blockTable_entry hb, ← hoff, blockEntry, le16_eq_digits, le16_eq_digits, le32_eq_digits]
    rfl
  case payload => rw [hoff, blockTable_payload hb]

end Sys2Proof.Machine
end

section
/-! The packed record (30_encoding R84, R85, R87): where its pixel bytes and attributes stand, and the bits of a pixel byte. -/

namespace Sys2Proof.Machine

/-! ## Rows of bytes -/

/-- Byte c of row r of a table of rows of n bytes stands at index r * n + c. -/
theorem flatMap_map_range_getElem? {m n r c : Nat} (f : Nat → Nat → Byte) (hr : r < m) (hc : c < n) :
    ((List.range m).flatMap (fun r => (List.range n).map (f r)))[r * n + c]? = some (f r c) := by
  induction m with
  | zero => omega
  | succ m ih =>
    rw [List.range_succ, List.flatMap_append, List.flatMap_singleton]
    by_cases hlast : r = m
    · subst hlast
      rw [List.getElem?_append_right (by rw [flatMap_map_range_length]; omega), flatMap_map_range_length,
        Nat.add_sub_cancel_left]
      simp [hc]
    · have hbefore : r * n + c < m * n := by
        have : (r + 1) * n ≤ m * n := Nat.mul_le_mul_right n (by omega)
        rw [Nat.succ_mul] at this
        omega
      rw [List.getElem?_append_left (by rwa [flatMap_map_range_length]), ih (by omega)]

/-! ## The bits of a pixel byte (44_sprite R182) -/

theorem getLsbD_one_shiftLeft {b k : Nat} (hb : b < 8) (hk : k < 8) : (1#8 <<< (7 - b)).getLsbD (7 - k) = decide (k = b) := by
  simp only [BitVec.getLsbD_shiftLeft, BitVec.getLsbD_one]
  grind

/-- After its first n pixels, bit 7 - k of a pixel byte says whether pixel k of those is not 0. -/
theorem packBits_getLsbD (lit : Nat → Prop) [DecidablePred lit] {n k : Nat} (hn : n ≤ 8) (hk : k < 8) :
    ((List.range n).foldl (fun acc b => if lit b then acc ||| (1#8 <<< (7 - b)) else acc) 0).getLsbD (7 - k)
      = decide (k < n ∧ lit k) := by
  induction n with
  | zero => simp
  | succ n ih =>
    rw [List.range_succ, List.foldl_append, List.foldl_cons, List.foldl_nil]
    split_ifs with hlit
    · rw [BitVec.getLsbD_or, ih (by omega), getLsbD_one_shiftLeft (by omega) hk]
      grind
    · rw [ih (by omega)]
      grind

theorem packByte_getLsbD (e : Entry) (r c : Nat) {b : Nat} (hb : b < 8) :
    (packByte e r c).getLsbD (7 - b) = decide (e.pix r (8 * c + b) ≠ 0) := by
  rw [packByte, packBits_getLsbD _ le_rfl hb]
  simp only [hb, true_and]

/-! ## The record -/

/-- The pixel bytes of a packed record, row by row (30_encoding R85). -/
def packedPixels (e : Entry) : List Byte :=
  (List.range (8 * e.h.toNat)).flatMap (fun r => (List.range e.w.toNat).map (fun c => packByte e r c))

/-- The attributes of a packed record, row by row (30_encoding R84). -/
def packedAttrs (e : Entry) : List Byte :=
  (List.range e.h.toNat).flatMap (fun r => (List.range e.w.toNat).map (fun c => e.attr r c))

/-- A packed record is five bytes, its pixel bytes and its attributes. -/
theorem packRecord_eq (id nxt : Nat) (e : Entry) : packRecord id nxt e
    = [BitVec.ofNat 8 id, BitVec.ofNat 8 nxt, BitVec.ofNat 8 (nxt >>> 8), e.w, e.h] ++ (packedPixels e ++ packedAttrs e) := by
  simp [packRecord, le16, packedPixels, packedAttrs]

theorem packedPixels_length (e : Entry) : (packedPixels e).length = 8 * e.w.toNat * e.h.toNat := by
  rw [packedPixels, flatMap_map_range_length]
  ring

theorem packRecord_pixelByte (id nxt : Nat) (e : Entry) {r c : Nat} (hr : r < 8 * e.h.toNat) (hc : c < e.w.toNat) :
    (packRecord id nxt e)[5 + r * e.w.toNat + c]? = some (packByte e r c) := by
  have hpixel : (packedPixels e)[r * e.w.toNat + c]? = some (packByte e r c) := flatMap_map_range_getElem? _ hr hc
  obtain ⟨hlength, -⟩ := List.getElem?_eq_some_iff.mp hpixel
  rw [packRecord_eq, Nat.add_assoc, List.getElem?_append_right (by simp), List.getElem?_append_left (by simpa using hlength)]
  simpa using hpixel

theorem packRecord_attr (id nxt : Nat) (e : Entry) {r c : Nat} (hr : r < e.h.toNat) (hc : c < e.w.toNat) :
    (packRecord id nxt e)[5 + 8 * e.w.toNat * e.h.toNat + r * e.w.toNat + c]? = some (e.attr r c) := by
  have hattr : (packedAttrs e)[r * e.w.toNat + c]? = some (e.attr r c) := flatMap_map_range_getElem? _ hr hc
  rw [packRecord_eq, ← List.append_assoc, List.getElem?_append_right (by simp [packedPixels_length]; omega), ← hattr]
  congr 1
  simp [packedPixels_length]
  omega

/-- Settles O33: the pixel bytes and the attributes stand row by row after the five bytes of the header. -/
theorem packedRecordLayout : Obligations.PackedRecordLayout := by
  rintro id nxt e w h rfl rfl
  refine ⟨packRecord_length id nxt e, ?header, fun r c hr hc => ⟨_, packRecord_pixelByte id nxt e hr hc, fun b hb => ?bit⟩,
    fun r c hr hc => packRecord_attr id nxt e hr hc⟩
  case header =>
    simp [packRecord_eq, ofNat_mod_256, Nat.shiftRight_eq_div_pow]
  case bit => exact packByte_getLsbD e r c hb

end Sys2Proof.Machine
end

section
/-! The cursor commands (40_cursor): what each one answers for every state of its registers, and the state it ends in. -/

namespace Sys2Proof.Machine

/-! ## The end of a command, from its result (60_exceptions R235, R236) -/

/-- An undisturbed command that answers results commits exactly these: `s.apply f` is `s.completed` with the results in
place, by definition. -/
theorem exec_of_ok (i : Instr) {s : State} {f : Effect} (hd : s.disturbed = false) (h : commandResult i s = .ok f) :
    exec i s = .next (s.apply f) := by
  rw [exec_eq_settle, h, State.settle_ok, s.finish_undisturbed f hd]

/-- A command that answers an error aborts with its code and its information value, disturbed or not. -/
theorem exec_of_error (i : Instr) {s : State} {e : CmdError} (h : commandResult i s = .error e) :
    exec i s = .next (s.aborted e.code e.info) := by
  rw [exec_eq_settle, h, State.settle_error, s.abort_eq_aborted]

/-! ## Commands that begin with a check (30_encoding R76, R77, R79) -/

/-- A command that first checks IN refuses an IN past MEM_SIZE. -/
theorem exec_of_in_unfit {i : Instr} {s : State} {next : Unit → Except CmdError Effect}
    (hfirst : commandResult i s = (checkRegion s .inp >>= next)) (hin : ¬ s.Fits .inp) :
    exec i s = .next (s.aborted 7 1) := by
  rw [checkRegion_error s .inp hin] at hfirst
  exact exec_of_error i hfirst

/-- A command that first checks IN and OUT refuses them as `InOutChecked` says: each clause is one outcome of the checks. -/
theorem inOutChecked_of_first {i : Instr} {s : State} {next : Unit → Except CmdError Effect}
    (hfirst : commandResult i s = (checkInOut s >>= next)) : InOutChecked i s := by
  obtain ⟨-, hin, hout, hclear⟩ | ⟨herr, hin⟩ | ⟨herr, hin, hout⟩ | ⟨herr, hin, hout, hclear⟩ := checkInOut_cases s
  · exact ⟨absurd hin, fun _ => absurd hout, fun _ _ => absurd hclear⟩
  all_goals rw [herr] at hfirst
  · exact ⟨fun _ => exec_of_error i hfirst, fun h => absurd h hin, fun h => absurd h hin⟩
  · exact ⟨absurd hin, fun _ _ => exec_of_error i hfirst, fun _ h => absurd h hout⟩
  · exact ⟨absurd hin, fun _ => absurd hout, fun _ _ _ => exec_of_error i hfirst⟩

/-! ## Exact values as words (00_scope R17) -/

theorem value_toNat (w : Word) : value w.toNat = some w := by
  rw [value, BitVec.ofNat_toNat, BitVec.setWidth_eq]

/-- A register that moves on by n. -/
theorem value_toNat_add (w : Word) (n : Nat) : value (w.toNat + n) = some (w + BitVec.ofNat 32 n) := by
  rw [value, BitVec.ofNat_add, BitVec.ofNat_toNat, BitVec.setWidth_eq]

theorem value_byte (b : Byte) : value b.toNat = some (b.setWidth 32) := by
  rw [value, BitVec.ofNat_toNat]

/-- A little-endian u16 has its high byte above its low byte (20_memory R52). -/
theorem value_u16le (lo hi : Byte) : value (u16le lo hi) = some (lo.setWidth 32 ||| (hi.setWidth 32 <<< 8)) := by
  have hor : lo.toNat ||| hi.toNat <<< 8 = lo.toNat + 256 * hi.toNat := by
    rw [Nat.or_comm, ← Nat.shiftLeft_add_eq_or_of_lt lo.isLt, Nat.shiftLeft_eq]
    omega
  refine congrArg some (BitVec.eq_of_toNat_eq ?_)
  simp only [u16le, ← hor, BitVec.toNat_ofNat, BitVec.toNat_or, BitVec.toNat_shiftLeft, BitVec.toNat_setWidth,
    Nat.or_mod_two_pow, Nat.mod_eq_of_lt (show hi.toNat < 2 ^ 32 by omega)]

/-! ## Reads at the cursor (40_cursor R100, R102 to R104) -/

theorem curReadU8_of_past_end {s : State} (hin : s.Fits .inp) (hcur : s.inLen.toNat ≤ s.cur.toNat) :
    curReadU8 s = .error (.outOfBounds s.cur.toNat) := by
  rw [curReadU8, checkRegion_ok s .inp hin]
  exact if_pos hcur

theorem curReadU8_of_inside {s : State} (hin : s.Fits .inp) (hcur : s.cur.toNat < s.inLen.toNat) :
    curReadU8 s = .ok { res0 := some ((s.inByte s.cur.toNat).setWidth 32), cur := some (s.cur + 1) } := by
  rw [curReadU8, checkRegion_ok s .inp hin, bind_ok, value_byte, value_toNat_add]
  exact if_neg (Nat.not_le_of_lt hcur)

/-- Fewer than 2 bytes are left at the cursor, also when it is past the end. -/
theorem State.avail_lt_two_iff (s : State) : s.avail < 2 ↔ s.inLen.toNat < s.cur.toNat + 2 := by
  rw [State.avail, State.len]
  omega

theorem curReadU16le_of_past_end {s : State} (hin : s.Fits .inp) (hcur : s.inLen.toNat < s.cur.toNat + 2) :
    curReadU16le s = .error (.outOfBounds s.cur.toNat) := by
  rw [curReadU16le, checkRegion_ok s .inp hin]
  exact if_pos (s.avail_lt_two_iff.mpr hcur)

theorem curReadU16le_of_inside {s : State} (hin : s.Fits .inp) (hcur : s.cur.toNat + 2 ≤ s.inLen.toNat) :
    curReadU16le s = .ok {
      res0 := some ((s.inByte s.cur.toNat).setWidth 32 ||| ((s.inByte (s.cur.toNat + 1)).setWidth 32 <<< 8))
      cur := some (s.cur + 2) } := by
  rw [curReadU16le, checkRegion_ok s .inp hin, bind_ok, value_u16le, value_toNat_add]
  exact if_neg fun havail => absurd (s.avail_lt_two_iff.mp havail) (Nat.not_lt_of_le hcur)

theorem curReadBytes_of_past_end {s : State} (hready : s.InOutReady) (hcount : s.avail < s.argCount) :
    curReadBytes s = .error (.outOfBounds s.cur.toNat) := by
  rw [curReadBytes, checkInOut_ok s hready, bind_ok, if_pos hcount]

/-- Inside IN, only the room in OUT is left to check. -/
theorem curReadBytes_of_inside {s : State} (hready : s.InOutReady) (hcount : s.argCount ≤ s.avail) :
    curReadBytes s = (checkOutput s (s.inBytes s.cur.toNat s.argCount) >>= fun _ => .ok {
      out := some (s.inBytes s.cur.toNat s.argCount), res0 := some s.arg0, cur := some (s.cur + s.arg0) }) := by
  rw [curReadBytes, checkInOut_ok s hready, bind_ok, if_neg (Nat.not_lt_of_le hcount), value_toNat_add, State.argCount,
    value_toNat, BitVec.ofNat_toNat, BitVec.setWidth_eq]

theorem curReadBytes_of_overflow {s : State} (hready : s.InOutReady) (hcount : s.argCount ≤ s.avail)
    (hout : s.outLen.toNat < s.argCount) : curReadBytes s = .error (.outputOverflow s.argCount) := by
  have hlength := s.inBytes_length s.cur.toNat s.argCount
  rw [curReadBytes_of_inside hready hcount, checkOutput_error s _ (hlength.symm ▸ hout), bind_error, hlength]

theorem curReadBytes_of_room {s : State} (hready : s.InOutReady) (hcount : s.argCount ≤ s.avail)
    (hout : s.argCount ≤ s.outLen.toNat) :
    curReadBytes s = .ok {
      out := some (s.inBytes s.cur.toNat s.argCount), res0 := some s.arg0, cur := some (s.cur + s.arg0) } := by
  have hlength := s.inBytes_length s.cur.toNat s.argCount
  rw [curReadBytes_of_inside hready hcount, checkOutput_ok s _ (hlength.symm ▸ hout), bind_ok]

/-! ## The statements -/

/-- Settles O17: the check of IN, then the two sides of the end of IN. -/
theorem curReadU8ReadsTheByteAtTheCursor : Obligations.CurReadU8ReadsTheByteAtTheCursor := by
  refine ⟨rfl, fun s hd => ⟨exec_of_in_unfit rfl, fun hin hcur => ?pastEnd, fun hin hcur => ?inside⟩⟩
  case pastEnd => exact exec_of_error .curReadU8 (curReadU8_of_past_end hin hcur)
  case inside => exact (exec_of_ok .curReadU8 hd (curReadU8_of_inside hin hcur) :)

/-- Settles O18: the check of IN, then the two sides of 2 bytes left. -/
theorem curReadU16leReadsTwoBytesLowFirst : Obligations.CurReadU16leReadsTwoBytesLowFirst := by
  refine ⟨rfl, fun s hd => ⟨exec_of_in_unfit rfl, fun hin hcur => ?pastEnd, fun hin hcur => ?inside⟩⟩
  case pastEnd => exact exec_of_error .curReadU16le (curReadU16le_of_past_end hin hcur)
  case inside => exact (exec_of_ok .curReadU16le hd (curReadU16le_of_inside hin hcur) :)

/-- Settles O19: the checks of IN and OUT, then each outcome of the read, whose success commits the bytes at OUT_BASE. -/
theorem curReadBytesCopiesToOut : Obligations.CurReadBytesCopiesToOut := by
  refine ⟨rfl, fun s hd => ⟨inOutChecked_of_first rfl, fun hready hcount => ?pastEnd, fun hready hcount hout => ?overflow,
    fun hready hcount hout => ?room⟩⟩
  case pastEnd => exact exec_of_error .curReadBytes (curReadBytes_of_past_end hready hcount)
  case overflow => exact exec_of_error .curReadBytes (curReadBytes_of_overflow hready hcount hout)
  case room => exact ⟨_, (exec_of_ok .curReadBytes hd (curReadBytes_of_room hready hcount hout) :), s.wroteOut_committed _⟩

/-- Settles O16: CUR_OPEN's result is CUR = 0, and an unsigned IN_LEN is at most 0 only when it is 0. -/
theorem curOpenStartsAFreshCursor : Obligations.CurOpenStartsAFreshCursor := by
  refine ⟨rfl, fun s hd => ⟨(exec_of_ok .curOpen hd rfl :), ?atEnd⟩⟩
  case atEnd =>
    have hzero : s.inLen.toNat ≤ 0 ↔ s.inLen = 0 := Nat.le_zero.trans (BitVec.toNat_inj (y := 0))
    exact decide_eq_decide.mpr hzero

/-- CUR_AT_END tests the cursor as STATUS.AT_END does (40_cursor R105). -/
theorem bit_atEnd (s : State) : bit s.atEnd = if s.inLen.toNat ≤ s.cur.toNat then 1 else 0 := by
  simp only [bit, State.atEnd, decide_eq_true_eq]

/-- Settles O20: CUR_AT_END's result is the test of `bit_atEnd` in RES0. -/
theorem curAtEndTestsTheCursor : Obligations.CurAtEndTestsTheCursor := by
  refine ⟨rfl, fun s hd => ?_⟩
  rw [← bit_atEnd]
  exact (exec_of_ok .curAtEnd hd rfl :)

end Sys2Proof.Machine
end

section
/-! The checksum and framing laws (41_block R120 to R122, R126): a framed block is a stored block whose checksum is right, and a
stored block parses back to what was stored. -/

namespace Sys2Proof.Machine

/-! ## The XOR checksum (41_block R120) -/

theorem xorsum_append (seed : Byte) (s t : List Byte) : xorsum seed (s ++ t) = xorsum (xorsum seed s) t :=
  List.foldl_append

/-- The seed counts once. -/
theorem xorsum_xor_seed (a seed : Byte) (s : List Byte) : xorsum (a ^^^ seed) s = a ^^^ xorsum seed s := by
  induction s generalizing seed with
  | nil => rfl
  | cons b s ih => exact (congrArg (xorsum · s) (BitVec.xor_assoc a seed b)).trans (ih (seed ^^^ b))

theorem xorsum_perm (seed : Byte) {s t : List Byte} (h : s.Perm t) : xorsum seed s = xorsum seed t :=
  have : RightCommutative fun acc b : Byte => acc ^^^ b := ⟨fun a b c => by
    rw [BitVec.xor_assoc, BitVec.xor_comm b c, ← BitVec.xor_assoc]⟩
  h.foldl_eq seed

/-- The XOR of a whole body is 0 exactly when its checksum is right. -/
theorem xorsum_body_eq_zero_iff (flag csum : Byte) (payload : List Byte) :
    xorsum 0 (flag :: (payload ++ [csum])) = 0 ↔ xorsum flag payload = csum := by
  have hbody : xorsum 0 (flag :: (payload ++ [csum])) = xorsum flag payload ^^^ csum := by
    rw [← List.cons_append, xorsum_append]
    simp [xorsum]
  rw [hbody]
  exact BitVec.xor_eq_zero_iff

/-- Another byte at one place changes the checksum by the difference of the two bytes. -/
theorem xorsum_set {seed x b : Byte} {s : List Byte} {k : Nat} (h : s[k]? = some b) :
    xorsum seed (s.set k x) = (b ^^^ x) ^^^ xorsum seed s := by
  induction s generalizing seed k with
  | nil => simp at h
  | cons c s ih =>
    cases k with
    | zero =>
      obtain rfl : c = b := by simpa using h
      have hseed : seed ^^^ x = (c ^^^ x) ^^^ (seed ^^^ c) := by
        rw [BitVec.xor_comm c x, BitVec.xor_comm seed c, BitVec.xor_assoc, ← BitVec.xor_assoc c c, BitVec.xor_self,
          BitVec.zero_xor, BitVec.xor_comm]
      exact (congrArg (xorsum · s) hseed).trans (xorsum_xor_seed _ _ s)
    | succ k => exact ih (by simpa using h)

/-! ## Stored blocks (30_encoding R80) -/

/-- The length field of a block, of at most 65535 (20_memory R52). -/
theorem u16le_digits {v : Nat} (h : v ≤ 65535) : u16le (BitVec.ofNat 8 (v % 256)) (BitVec.ofNat 8 (v / 256)) = v := by
  simp only [u16le, BitVec.toNat_ofNat]
  omega

/-- A stored block is its length field and its body: flag, payload, checksum. -/
theorem storedBlock_some (flag csum : Byte) (payload : List Byte) : storedBlock (some (flag, payload, csum))
    = BitVec.ofNat 8 ((payload.length + 1) % 256) :: BitVec.ofNat 8 ((payload.length + 1) / 256)
      :: flag :: (payload ++ [csum]) := rfl

/-- A framed block is the stored block with the right checksum (41_block R121). -/
theorem frame_eq_storedBlock {flag : Byte} {payload : List Byte} (h : payload.length ≤ 65534) :
    frame flag payload = storedBlock (some (flag, payload, xorsum flag payload)) := by
  have hhigh : (payload.length + 1) / 256 % 256 = (payload.length + 1) / 256 := by omega
  simp [frame, le16_eq_digits, storedBlock_some, hhigh]

theorem frame_drop_two (flag : Byte) (payload : List Byte) :
    (frame flag payload).drop 2 = flag :: (payload ++ [xorsum flag payload]) := by
  simp [frame, le16]

/-! ## Parsing (41_block R122) -/

theorem parseBlock_of_short {t : List Byte} {p : Nat} (h : t.length - p < 2) : parseBlock t p = .error (.outOfBounds p) := by
  rw [parseBlock, if_pos h]

theorem parseBlock_of_empty {t : List Byte} {p : Nat} (hrest : 2 ≤ t.length - p)
    (hL : u16le (t.getD p 0) (t.getD (p + 1) 0) = 0) : parseBlock t p = .ok (emptyBlock, p + 2) := by
  rw [parseBlock, if_neg (Nat.not_lt_of_le hrest)]
  simp only [hL]
  rfl

theorem parseBlock_of_cut {t : List Byte} {p L : Nat} (hL : u16le (t.getD p 0) (t.getD (p + 1) 0) = L) (hpos : L ≠ 0)
    (hrest : t.length - p < L + 3) : parseBlock t p = .error (.outOfBounds p) := by
  rw [parseBlock]
  split
  · rfl
  · simp only [hL]
    rw [if_neg hpos, if_pos hrest]

/-- A non-empty block that is all there parses. -/
theorem parseBlock_of_whole {t : List Byte} {p L : Nat} (hL : u16le (t.getD p 0) (t.getD (p + 1) 0) = L) (hpos : L ≠ 0)
    (hrest : L + 3 ≤ t.length - p) : parseBlock t p = .ok (blockAt t p L, p + L + 3) := by
  rw [parseBlock, if_neg (by omega)]
  simp only [hL]
  rw [if_neg hpos, if_neg (by omega)]

/-- A stored block that starts where `before` ends. -/
theorem blockAt_storedBlock (before rest : List Byte) (flag csum : Byte) (payload : List Byte) :
    blockAt (before ++ (storedBlock (some (flag, payload, csum)) ++ rest)) before.length (payload.length + 1)
      = decodedBlock (some (flag, payload, csum)) := by
  rw [storedBlock_some]
  generalize htext : before ++ _ = t
  have hflag : t.getD (before.length + 2) 0 = flag := by simp [← htext]
  have hpayload : (t.drop (before.length + 3)).take (payload.length + 1 - 1) = payload := by simp [← htext]
  have hstored : t.getD (before.length + 2 + (payload.length + 1)) 0 = csum := by
    rw [show before.length + 2 + (payload.length + 1) = before.length + (payload.length + 3) by omega]
    simp [← htext]
  simp only [blockAt, hflag, hpayload, hstored, decodedBlock, xorsum, beq_eq_decide]

/-- A stored block parses to what it stores, whatever stands before and after it. -/
theorem parseBlock_storedBlock (before rest : List Byte) {flag csum : Byte} {payload : List Byte}
    (h : payload.length ≤ 65534) :
    parseBlock (before ++ (storedBlock (some (flag, payload, csum)) ++ rest)) before.length
      = .ok (decodedBlock (some (flag, payload, csum)), before.length + (payload.length + 4)) := by
  rw [parseBlock_of_whole (L := payload.length + 1) ?length (Nat.succ_ne_zero _) ?room, blockAt_storedBlock,
    Nat.add_assoc, Nat.add_assoc]
  case length => simpa [storedBlock_some] using u16le_digits (v := payload.length + 1) (by omega)
  case room => simp [storedBlock_some]

/-! ## The laws (41_block R126) -/

/-- A body of two bytes or more is a flag, a payload and a checksum. -/
theorem exists_body {n : Nat} {body : List Byte} (h : body.length = n + 2) :
    ∃ flag payload csum, body = flag :: (payload ++ [csum]) ∧ payload.length = n := by
  obtain ⟨flag, tail, rfl⟩ := List.exists_cons_of_length_eq_add_one h
  obtain rfl | ⟨payload, csum, rfl⟩ := List.eq_nil_or_concat' tail
  · simp at h
  · exact ⟨flag, payload, csum, rfl, by simpa using h⟩

/-- A body with another byte at one place keeps its length field and fails its checksum. -/
theorem exists_storedBlock_set {flag x : Byte} {payload : List Byte} {k : Nat} (hlength : payload.length ≤ 65534)
    (hk : k < payload.length + 2) (hx : (frame flag payload)[2 + k]? ≠ some x) :
    ∃ flag' payload' csum', (frame flag payload).set (2 + k) x = storedBlock (some (flag', payload', csum'))
      ∧ payload'.length = payload.length ∧ xorsum flag' payload' ≠ csum' := by
  obtain ⟨b, hb⟩ : ∃ b, (frame flag payload)[2 + k]? = some b :=
    ⟨_, List.getElem?_eq_getElem (by rw [frame_length]; omega)⟩
  have hget : (flag :: (payload ++ [xorsum flag payload]))[k]? = some b := by
    rw [← frame_drop_two, List.getElem?_drop, hb]
  obtain ⟨flag', payload', csum', hset, hlength'⟩ := exists_body (n := payload.length)
    (body := (flag :: (payload ++ [xorsum flag payload])).set k x) (by simp)
  refine ⟨flag', payload', csum', ?stored, hlength', fun hsum => hx ?same⟩
  case stored =>
    rw [storedBlock_some, hlength', ← hset, frame_eq_storedBlock hlength, storedBlock_some, Nat.add_comm 2 k]
    rfl
  case same =>
    have hzero := (xorsum_body_eq_zero_iff flag' csum' payload').mpr hsum
    rw [← hset, xorsum_set hget, (xorsum_body_eq_zero_iff _ _ _).mpr rfl] at hzero
    rw [hb, BitVec.xor_eq_zero_iff.mp ((BitVec.xor_zero).symm.trans hzero)]

/-- Settles O24: parsing inverts storing, and a body's XOR is 0 exactly when its checksum is right. -/
theorem framingLaws : Obligations.FramingLaws := by
  refine ⟨fun flag payload rest hlength => ?roundTrip, fun flag payload => ?bodySum,
    fun flag p q hperm => xorsum_perm flag hperm, fun flag payload k x hlength hk hx => ?damaged⟩
  case roundTrip =>
    have hparse := parseBlock_storedBlock [] rest (flag := flag) (csum := xorsum flag payload) hlength
    rw [← frame_eq_storedBlock hlength, List.length_nil, Nat.zero_add] at hparse
    exact ⟨_, hparse, rfl, rfl, rfl, rfl, decide_eq_true rfl⟩
  case bodySum =>
    rw [frame_drop_two]
    exact (xorsum_body_eq_zero_iff _ _ _).mpr rfl
  case damaged =>
    obtain ⟨flag', payload', csum', hset, hlength', hsum⟩ := exists_storedBlock_set hlength hk hx
    have hparse := parseBlock_storedBlock [] [] (flag := flag') (csum := csum') (hlength'.trans_le hlength)
    rw [List.append_nil, ← hset, List.length_nil, Nat.zero_add, hlength'] at hparse
    exact ⟨_, hparse, decide_eq_false hsum⟩

end Sys2Proof.Machine
end

section
/-! The block commands (41_block R123 to R125): what each one answers for every state of its registers, and the state it ends
in. -/

namespace Sys2Proof.Machine

/-! ## The IN region as one sequence (00_scope R10) -/

theorem State.inAll_getD (s : State) {i : Nat} (h : i < s.len .inp) : s.inAll.getD i 0 = s.inByte i := by
  rw [List.getD_eq_getElem?_getD, State.inAll, s.inBytes_getElem? 0 _ i h, Nat.zero_add, Option.getD_some]

theorem State.inAll_part (s : State) {i n : Nat} (h : i + n ≤ s.len .inp) : (s.inAll.drop i).take n = s.inBytes i n := by
  refine List.ext_getElem? fun k => ?_
  rw [List.getElem?_take]
  split_ifs with hk
  · rw [List.getElem?_drop, State.inAll, s.inBytes_getElem? 0 _ (i + k) (by omega), s.inBytes_getElem? i n k hk,
      Nat.zero_add]
  · rw [List.getElem?_eq_none (by rw [s.inBytes_length]; omega)]

/-! ## ParseBlock at the cursor (41_block R122) -/

/-- L, the length field at the cursor. -/
def State.cursorLength (s : State) : Nat := u16le (s.inByte s.cur.toNat) (s.inByte (s.cur.toNat + 1))

/-- The non-empty block at the cursor. -/
def State.cursorBlock (s : State) : Block where
  length := s.cursorLength
  empty := false
  flag := s.inByte (s.cur.toNat + 2)
  stored := s.inByte (s.cur.toNat + 2 + s.cursorLength)
  computed := xorsum (s.inByte (s.cur.toNat + 2)) (s.inBytes (s.cur.toNat + 3) (s.cursorLength - 1))
  ok := xorsum (s.inByte (s.cur.toNat + 2)) (s.inBytes (s.cur.toNat + 3) (s.cursorLength - 1))
    == s.inByte (s.cur.toNat + 2 + s.cursorLength)
  payload := s.inBytes (s.cur.toNat + 3) (s.cursorLength - 1)

section
variable {s : State}

/-- `rem` of ParseBlock at the cursor is `avail`. -/
theorem State.inAll_rest (s : State) : s.inAll.length - s.cur.toNat = s.avail := by
  rw [State.inAll_length, State.avail, State.len]

theorem State.inAll_lengthField (h : 2 ≤ s.avail) :
    u16le (s.inAll.getD s.cur.toNat 0) (s.inAll.getD (s.cur.toNat + 1) 0) = s.cursorLength := by
  rw [State.avail] at h
  rw [s.inAll_getD (by omega), s.inAll_getD (by omega), State.cursorLength]

theorem parseBlock_cursor_of_short (h : s.avail < 2) :
    parseBlock s.inAll s.cur.toNat = .error (.outOfBounds s.cur.toNat) :=
  parseBlock_of_short (s.inAll_rest ▸ h)

theorem parseBlock_cursor_of_empty (h : 2 ≤ s.avail) (hL : s.cursorLength = 0) :
    parseBlock s.inAll s.cur.toNat = .ok (emptyBlock, s.cur.toNat + 2) :=
  parseBlock_of_empty (s.inAll_rest ▸ h) (State.inAll_lengthField h ▸ hL)

theorem parseBlock_cursor_of_cut (h : 2 ≤ s.avail) (hL : s.cursorLength ≠ 0) (hcut : s.avail < s.cursorLength + 3) :
    parseBlock s.inAll s.cur.toNat = .error (.outOfBounds s.cur.toNat) :=
  parseBlock_of_cut (State.inAll_lengthField h) hL (s.inAll_rest ▸ hcut)

theorem blockAt_cursor (h : s.cursorLength + 3 ≤ s.avail) :
    blockAt s.inAll s.cur.toNat s.cursorLength = s.cursorBlock := by
  rw [State.avail] at h
  rw [blockAt, s.inAll_getD (by omega), s.inAll_getD (by omega), s.inAll_part (by omega), State.cursorBlock]

theorem parseBlock_cursor_of_whole (hL : s.cursorLength ≠ 0) (h : s.cursorLength + 3 ≤ s.avail) :
    parseBlock s.inAll s.cur.toNat = .ok (s.cursorBlock, s.cur.toNat + s.cursorLength + 3) := by
  rw [parseBlock_of_whole (State.inAll_lengthField (by omega)) hL (s.inAll_rest ▸ h), blockAt_cursor h]

/-! ## BLK_DECODE (41_block R123) -/

/-- VERIFY refuses nothing but a non-empty block whose checksums differ. -/
theorem verifyBlock_ok {verify : Bool} {b : Block} (p : Nat) (h : verify = true → b.empty = true ∨ b.ok = true) :
    verifyBlock verify b p = .ok () := by
  refine if_neg fun hrefuse => ?_
  simp only [Bool.and_eq_true, Bool.not_eq_true'] at hrefuse
  obtain ⟨⟨hverify, hempty⟩, hok⟩ := hrefuse
  obtain h | h := h hverify
  · exact absurd h (by simp [hempty])
  · exact absurd h (by simp [hok])

theorem verifyBlock_error {b : Block} (p : Nat) (hempty : b.empty = false) (hok : b.ok = false) :
    verifyBlock true b p = .error (.checksumMismatch p) := by
  rw [verifyBlock, hempty, hok]
  rfl

/-- What BLK_DECODE reports of a parsed block and the offset after it: its fields, its payload and the new cursor. -/
def blockEffect (b : Block) (next : Nat) : Effect where
  out := some b.payload
  res0 := value b.length
  res1 := value b.flag.toNat
  res2 := value b.stored.toNat
  res3 := value b.computed.toNat
  res4 := value b.payload.length
  res5 := value (blockInfo b.empty b.ok)
  cur := value next

variable {verify : Bool} {b : Block} {next : Nat}

theorem blkDecode_of_no_block {e : CmdError} (hready : s.InOutReady) (h : parseBlock s.inAll s.cur.toNat = .error e) :
    blkDecode verify s = .error e := by
  rw [blkDecode, checkInOut_ok s hready, h]
  rfl

/-- With a block parsed, VERIFY and the room in OUT are left to check. -/
theorem blkDecode_of_block (hready : s.InOutReady) (h : parseBlock s.inAll s.cur.toNat = .ok (b, next)) :
    blkDecode verify s = (verifyBlock verify b s.cur.toNat >>= fun _ => checkOutput s b.payload >>= fun _ =>
      .ok (blockEffect b next)) := by
  rw [blkDecode, checkInOut_ok s hready, h]
  rfl

theorem blkDecode_of_mismatch (hready : s.InOutReady) (h : parseBlock s.inAll s.cur.toNat = .ok (b, next))
    (hempty : b.empty = false) (hok : b.ok = false) : blkDecode true s = .error (.checksumMismatch s.cur.toNat) := by
  rw [blkDecode_of_block hready h, verifyBlock_error _ hempty hok, bind_error]

theorem blkDecode_of_overflow (hready : s.InOutReady) (h : parseBlock s.inAll s.cur.toNat = .ok (b, next))
    (hverify : verify = true → b.empty = true ∨ b.ok = true) (hout : s.outLen.toNat < b.payload.length) :
    blkDecode verify s = .error (.outputOverflow b.payload.length) := by
  rw [blkDecode_of_block hready h, verifyBlock_ok _ hverify, bind_ok, checkOutput_error s _ hout, bind_error]

theorem blkDecode_of_room (hready : s.InOutReady) (h : parseBlock s.inAll s.cur.toNat = .ok (b, next))
    (hverify : verify = true → b.empty = true ∨ b.ok = true) (hout : b.payload.length ≤ s.outLen.toNat) :
    blkDecode verify s = .ok (blockEffect b next) := by
  rw [blkDecode_of_block hready h, verifyBlock_ok _ hverify, bind_ok, checkOutput_ok s _ hout, bind_ok]

theorem State.cursorBlock_payload_length (s : State) : s.cursorBlock.payload.length = s.cursorLength - 1 :=
  s.inBytes_length _ _

theorem State.cursorBlock_ok_iff (s : State) :
    s.cursorBlock.ok = true ↔ s.cursorBlock.computed = s.cursorBlock.stored := beq_iff_eq

theorem State.cursorBlock_not_ok (s : State) (h : s.cursorBlock.computed ≠ s.cursorBlock.stored) :
    s.cursorBlock.ok = false := beq_false_of_ne h

/-- The empty block is reported by zeros and EMPTY, and moves the cursor over its length field. -/
theorem blockEffect_emptyBlock (s : State) : blockEffect emptyBlock (s.cur.toNat + 2) = {
    out := some [], res0 := some 0, res1 := some 0, res2 := some 0, res3 := some 0, res4 := some 0, res5 := some 1
    cur := some (s.cur + 2) } := by
  rw [blockEffect, value_toNat_add]
  rfl

/-- The block at the cursor is reported by its fields, and CSUM_OK by its checksums being equal. -/
theorem blockEffect_cursorBlock (s : State) : blockEffect s.cursorBlock (s.cur.toNat + s.cursorLength + 3) = {
    out := some s.cursorBlock.payload
    res0 := some (word s.cursorLength)
    res1 := some (s.cursorBlock.flag.setWidth 32)
    res2 := some (s.cursorBlock.stored.setWidth 32)
    res3 := some (s.cursorBlock.computed.setWidth 32)
    res4 := some (word (s.cursorLength - 1))
    res5 := some (if s.cursorBlock.computed = s.cursorBlock.stored then 2 else 0)
    cur := some (s.cur + word (s.cursorLength + 3)) } := by
  have hinfo : value (blockInfo s.cursorBlock.empty s.cursorBlock.ok)
      = some (if s.cursorBlock.computed = s.cursorBlock.stored then 2 else 0) := by
    by_cases hcsum : s.cursorBlock.computed = s.cursorBlock.stored
    · rw [if_pos hcsum, s.cursorBlock_ok_iff.mpr hcsum]
      rfl
    · rw [if_neg hcsum, s.cursorBlock_not_ok hcsum]
      rfl
  rw [blockEffect, Nat.add_assoc, value_toNat_add, value_byte, value_byte, value_byte, hinfo,
    s.cursorBlock_payload_length]
  rfl

/-! ## BLK_ENCODE (41_block R124) -/

variable {flag : Byte}

theorem checkPayload_ok {n : Nat} (h : n ≤ 65534) : checkPayload n = .ok () := if_neg (Nat.not_lt_of_le h)

theorem checkPayload_error {n : Nat} (h : 65534 < n) : checkPayload n = .error (.encodingError n) := if_pos h

theorem blkEncode_of_oversized (hready : s.InOutReady) (h : 65534 < s.len .inp) :
    blkEncode flag s = .error (.encodingError (s.len .inp)) := by
  rw [blkEncode, checkInOut_ok s hready, checkPayload_error h]
  rfl

theorem State.frame_inAll_length (s : State) (flag : Byte) : (frame flag s.inAll).length = s.inLen.toNat + 4 := by
  rw [frame_length, State.inAll_length]

/-- The framed IN region is the stored block of its bytes and their checksum. -/
theorem State.frame_inAll (s : State) (flag : Byte) (h : s.len .inp ≤ 65534) : frame flag s.inAll
    = [BitVec.ofNat 8 ((s.inLen.toNat + 1) % 256), BitVec.ofNat 8 ((s.inLen.toNat + 1) / 256), flag] ++ s.inAll
      ++ [xorsum flag s.inAll] := by
  rw [frame_eq_storedBlock (s.inAll_length.trans_le h), storedBlock, State.inAll_length]

/-- With a payload that fits the length field, only the room in OUT is left to check. -/
theorem blkEncode_of_payload (hready : s.InOutReady) (h : s.len .inp ≤ 65534) :
    blkEncode flag s = (checkOutput s (frame flag s.inAll) >>= fun _ => .ok {
      out := some (frame flag s.inAll)
      res0 := some (word (s.inLen.toNat + 4))
      res1 := some ((xorsum flag s.inAll).setWidth 32) }) := by
  rw [blkEncode, checkInOut_ok s hready, checkPayload_ok h, value_byte]
  rfl

theorem blkEncode_of_overflow (hready : s.InOutReady) (h : s.len .inp ≤ 65534)
    (hout : s.outLen.toNat < s.inLen.toNat + 4) : blkEncode flag s = .error (.outputOverflow (s.inLen.toNat + 4)) := by
  have hlength := s.frame_inAll_length flag
  rw [blkEncode_of_payload hready h, checkOutput_error s _ (hlength.symm ▸ hout), bind_error, hlength]

theorem blkEncode_of_room (hready : s.InOutReady) (h : s.len .inp ≤ 65534) (hout : s.inLen.toNat + 4 ≤ s.outLen.toNat) :
    blkEncode flag s = .ok {
      out := some (frame flag s.inAll)
      res0 := some (word (s.inLen.toNat + 4))
      res1 := some ((xorsum flag s.inAll).setWidth 32) } := by
  rw [blkEncode_of_payload hready h, checkOutput_ok s _ ((s.frame_inAll_length flag).symm ▸ hout), bind_ok]

/-! ## XOR_CSUM (41_block R125) -/

theorem xorCsum_of_inside {seed : Byte} (hin : s.Fits .inp) :
    xorCsum seed s = .ok { res0 := some ((xorsum seed s.inAll).setWidth 32) } := by
  rw [xorCsum, checkRegion_ok s .inp hin, value_byte]
  rfl

end

/-! ## The statements -/

/-- Settles O21: the checks of IN and OUT, then each outcome of ParseBlock, and of a whole block each outcome of VERIFY and of
the room in OUT. -/
theorem blkDecodeDecodesTheBlockAtTheCursor : Obligations.BlkDecodeDecodesTheBlockAtTheCursor := by
  refine ⟨rfl, rfl, ?_⟩
  rintro verify s _ _ _ _ _ _ _ hd rfl rfl rfl rfl rfl rfl rfl
  refine ⟨inOutChecked_of_first rfl, fun hready havail => ?short, fun hready havail hL => ?empty,
    fun hready havail hL hcut => ?cut, fun hready hL havail hverify hcsum => ?mismatch,
    fun hready hL havail hverify hout => ?overflow, fun hready hL havail hverify hout => ?room⟩
  case short =>
    exact exec_of_error (.blkDecode verify) (blkDecode_of_no_block hready (parseBlock_cursor_of_short havail))
  case empty =>
    have hresult := blkDecode_of_room (verify := verify) hready (parseBlock_cursor_of_empty havail hL)
      (fun _ => .inl rfl) (Nat.zero_le _)
    rw [blockEffect_emptyBlock] at hresult
    exact (exec_of_ok (.blkDecode verify) hd hresult :)
  case cut =>
    exact exec_of_error (.blkDecode verify) (blkDecode_of_no_block hready (parseBlock_cursor_of_cut havail hL hcut))
  case mismatch =>
    subst hverify
    exact exec_of_error (.blkDecode true) (blkDecode_of_mismatch hready (parseBlock_cursor_of_whole hL havail) rfl
      (s.cursorBlock_not_ok hcsum))
  case overflow =>
    have hresult := blkDecode_of_overflow hready (parseBlock_cursor_of_whole hL havail)
      (fun h => .inr (s.cursorBlock_ok_iff.mpr (hverify h))) (s.cursorBlock_payload_length.symm ▸ hout)
    rw [s.cursorBlock_payload_length] at hresult
    exact exec_of_error (.blkDecode verify) hresult
  case room =>
    have hresult := blkDecode_of_room hready (parseBlock_cursor_of_whole hL havail)
      (fun h => .inr (s.cursorBlock_ok_iff.mpr (hverify h))) (s.cursorBlock_payload_length.symm ▸ hout)
    rw [blockEffect_cursorBlock] at hresult
    exact ⟨_, (exec_of_ok (.blkDecode verify) hd hresult :), s.wroteOut_committed _⟩

/-- Settles O22: the checks of IN and OUT, the payload's bound, then the room in OUT; the output is the stored block with the
right checksum. -/
theorem blkEncodeFramesTheInRegion : Obligations.BlkEncodeFramesTheInRegion := by
  refine ⟨fun _ => rfl, ?_⟩
  rintro flag s _ _ _ hd rfl rfl rfl
  refine ⟨inOutChecked_of_first rfl, fun hready hlong => ?oversized, fun hready hfits hout => ?overflow,
    fun hready hfits hout => ?room⟩
  case oversized => exact exec_of_error (.blkEncode flag) (blkEncode_of_oversized hready hlong)
  case overflow => exact exec_of_error (.blkEncode flag) (blkEncode_of_overflow hready hfits hout)
  case room =>
    have hwrote := s.wroteOut_committed (frame flag s.inAll)
    exact ⟨_, (exec_of_ok (.blkEncode flag) hd (blkEncode_of_room hready hfits hout) :),
      s.frame_inAll flag hfits ▸ hwrote⟩

/-- Settles O23: the check of IN, then the sum. -/
theorem xorCsumSumsTheInRegion : Obligations.XorCsumSumsTheInRegion := by
  refine ⟨fun _ => rfl, fun seed s hd => ⟨exec_of_in_unfit rfl, fun hin => ?inside⟩⟩
  case inside => exact (exec_of_ok (.xorCsum seed) hd (xorCsum_of_inside hin) :)

end Sys2Proof.Machine
end

section
/-! The header commands (42_header R141 to R145): TrimLen, the header payload, and what HDR_DECODE and HDR_ENCODE answer for
every state of their registers. -/

namespace Sys2Proof.Machine

/-! ## TrimLen (42_header R141) -/

theorem isTrim_iff (b : Byte) : isTrim b = true ↔ b.toNat ≤ 0x20 ∨ b.toNat = 0x7F := by
  simp only [isTrim, Bool.or_eq_true, decide_eq_true_eq]

theorem trimLen_eq_rdropWhile_length (name : List Byte) : trimLen name = (name.rdropWhile isTrim).length := by
  rw [trimLen, List.rdropWhile, List.length_reverse]

theorem trimLen_le_length (name : List Byte) : trimLen name ≤ name.length := by
  rw [trimLen_eq_rdropWhile_length]
  exact (List.rdropWhile_prefix isTrim name).length_le

theorem isTrim_of_trimLen_le {name : List Byte} {k : Nat} {b : Byte} (hk : trimLen name ≤ k) (hb : name[k]? = some b) :
    isTrim b = true := by
  rw [trimLen_eq_rdropWhile_length] at hk
  rw [← List.rdropWhile_append_rtakeWhile (p := isTrim) (l := name), List.getElem?_append_right hk] at hb
  exact List.mem_rtakeWhile_imp (List.mem_of_getElem? hb)

theorem not_isTrim_of_trimLen_eq_succ {name : List Byte} {k : Nat} {b : Byte} (hk : trimLen name = k + 1)
    (hb : name[k]? = some b) : ¬ isTrim b = true := by
  rw [trimLen_eq_rdropWhile_length] at hk
  have hkept : name.rdropWhile isTrim ≠ [] := List.ne_nil_of_length_eq_add_one hk
  have hlast : (name.rdropWhile isTrim).getLast hkept = b := by
    rw [← List.rdropWhile_append_rtakeWhile (p := isTrim) (l := name), List.getElem?_append_left (by omega),
      List.getElem?_eq_some_iff] at hb
    obtain ⟨_, rfl⟩ := hb
    simp [List.getLast_eq_getElem, hk]
  exact hlast ▸ List.rdropWhile_last_not isTrim name hkept

/-- TRIM bytes at the end do not count. -/
theorem trimLen_append_of_trim (name : List Byte) {tail : List Byte} (h : ∀ b ∈ tail, isTrim b = true) :
    trimLen (name ++ tail) = trimLen name := by
  rw [trimLen, List.reverse_append, List.dropWhile_append_of_pos (by simpa using h), trimLen]

/-- Settles O25: the name is what TrimLen keeps, which ends in no TRIM byte, and a tail of TRIM bytes. -/
theorem trimLenDropsTheTrailingTrimBytes : Obligations.TrimLenDropsTheTrailingTrimBytes := by
  refine fun name => ⟨trimLen_le_length name, fun k b hk hb => ?dropped, fun k b hk hb => ?last⟩
  case dropped => exact (isTrim_iff b).mp (isTrim_of_trimLen_le hk hb)
  case last =>
    have hkept := not_isTrim_of_trimLen_eq_succ hk hb
    rwa [isTrim_iff, not_or, not_le] at hkept

/-! ## The header payload (42_header R144, 30_encoding R81) -/

/-- A name of at most 10 bytes is padded with spaces. -/
theorem nameField_of_short {name : List Byte} (h : name.length ≤ 10) :
    nameField name = name ++ List.replicate (10 - name.length) 0x20 := by
  rw [nameField, Config.nameLen, List.take_of_length_le h]

theorem trimLen_nameField {name : List Byte} (h : name.length ≤ 10) : trimLen (nameField name) = trimLen name := by
  rw [nameField_of_short h]
  refine trimLen_append_of_trim name fun b hb => ?_
  obtain rfl := List.eq_of_mem_replicate hb
  rfl

/-- A header payload is its type byte, its name field, and six bytes of three fields. -/
theorem headerPayload_eq (t : Byte) (name : List Byte) (d p1 p2 : Nat) :
    headerPayload t name d p1 p2 = t :: (nameField name ++ (le16 d ++ (le16 p1 ++ le16 p2))) := by
  simp [headerPayload]

theorem u16le_le16 {v : Nat} (h : v < 65536) : u16le (BitVec.ofNat 8 v) (BitVec.ofNat 8 (v >>> 8)) = v := by
  have hdigits := u16le_digits (Nat.le_of_lt_succ h)
  rwa [ofNat_mod_256, ← Nat.shiftRight_eq_div_pow v 8] at hdigits

/-- The low 16 bits of a register, low byte first (20_memory R52). -/
theorem le16_extractLsb' (w : Word) :
    le16 (w.extractLsb' 0 16).toNat = [w.extractLsb' 0 8, w.extractLsb' 8 8] := by
  have hlow : BitVec.ofNat 8 (w.extractLsb' 0 16).toNat = w.extractLsb' 0 8 := by
    refine BitVec.eq_of_toNat_eq ?_
    simp only [BitVec.toNat_ofNat, BitVec.extractLsb'_toNat]
    omega
  have hhigh : BitVec.ofNat 8 ((w.extractLsb' 0 16).toNat >>> 8) = w.extractLsb' 8 8 := by
    refine BitVec.eq_of_toNat_eq ?_
    simp only [BitVec.toNat_ofNat, BitVec.extractLsb'_toNat, Nat.shiftRight_eq_div_pow]
    omega
  rw [le16, hlow, hhigh]

section
variable {s : State}

/-! ## HDR_DECODE (42_header R142) -/

/-- What HDR_DECODE reports of a header: its name field, its type, its three fields and the trimmed length of the name. -/
def headerEffect (t : Byte) (name : List Byte) (d p1 p2 : Nat) : Effect where
  out := some name
  res0 := some (t.setWidth 32)
  res1 := some (word d)
  res2 := some (word p1)
  res3 := some (word p2)
  res4 := some (word (trimLen name))

theorem hdrDecode_of_malformed (hready : s.InOutReady) (hlen : s.inLen.toNat ≠ 17) :
    hdrDecode s = .error (.malformedHeader s.inLen.toNat) := by
  rw [hdrDecode, checkInOut_ok s hready]
  exact if_pos hlen

/-- With 17 bytes in IN, only the room in OUT is left to check. -/
theorem hdrDecode_of_header (hready : s.InOutReady) (hlen : s.inLen.toNat = 17) :
    hdrDecode s = (checkOutput s (s.inBytes 1 10) >>= fun _ => .ok (headerEffect (s.inByte 0) (s.inBytes 1 10)
      (u16le (s.inByte 11) (s.inByte 12)) (u16le (s.inByte 13) (s.inByte 14)) (u16le (s.inByte 15) (s.inByte 16)))) := by
  rw [hdrDecode, checkInOut_ok s hready, bind_ok, value_byte]
  exact if_neg (not_not_intro hlen)

theorem hdrDecode_of_overflow (hready : s.InOutReady) (hlen : s.inLen.toNat = 17) (hout : s.outLen.toNat < 10) :
    hdrDecode s = .error (.outputOverflow 10) := by
  have hlength := s.inBytes_length 1 10
  rw [hdrDecode_of_header hready hlen, checkOutput_error s _ (hlength.symm ▸ hout), bind_error, hlength]

theorem hdrDecode_of_room (hready : s.InOutReady) (hlen : s.inLen.toNat = 17) (hout : 10 ≤ s.outLen.toNat) :
    hdrDecode s = .ok (headerEffect (s.inByte 0) (s.inBytes 1 10) (u16le (s.inByte 11) (s.inByte 12))
      (u16le (s.inByte 13) (s.inByte 14)) (u16le (s.inByte 15) (s.inByte 16))) := by
  rw [hdrDecode_of_header hready hlen, checkOutput_ok s _ ((s.inBytes_length 1 10).symm ▸ hout), bind_ok]

/-! ## HDR_DECODE of a header payload (42_header R145) -/

section
variable {t : Byte} {name : List Byte} {d p1 p2 : Nat}

theorem State.inLen_of_header (h : s.inAll = headerPayload t name d p1 p2) : s.inLen.toNat = 17 := by
  rw [← State.inAll_length, h, headerPayload_length]

/-- Byte i of IN is byte i of the header payload it holds. -/
theorem State.inByte_of_header (h : s.inAll = headerPayload t name d p1 p2) {i : Nat} (hi : i < 17) :
    s.inByte i = (headerPayload t name d p1 p2).getD i 0 := by
  rw [← h, s.inAll_getD (hi.trans_eq (State.inLen_of_header h).symm)]

theorem State.inBytes_of_header (h : s.inAll = headerPayload t name d p1 p2) : s.inBytes 1 10 = nameField name := by
  have hinside : 1 + 10 ≤ s.len .inp := (by decide : 1 + 10 ≤ 17).trans_eq (State.inLen_of_header h).symm
  rw [← s.inAll_part hinside, h, headerPayload_eq, List.drop_one, List.tail_cons, List.take_left' (nameField_length name)]

/-- Past the type byte and the name field, byte i of a header payload is a byte of its three fields. -/
theorem headerPayload_field (i : Nat) : (headerPayload t name d p1 p2).getD (11 + i) 0
    = (le16 d ++ (le16 p1 ++ le16 p2)).getD i 0 := by
  have hindex : 11 + i = 10 + i + 1 := by omega
  rw [headerPayload_eq, hindex, List.getD_cons_succ, List.getD_append_right _ _ _ _ (by simp), nameField_length,
    Nat.add_sub_cancel_left]

theorem hdrDecode_of_headerPayload (hready : s.InOutReady) (hout : 10 ≤ s.outLen.toNat) (hd : d < 65536)
    (hp1 : p1 < 65536) (hp2 : p2 < 65536) (h : s.inAll = headerPayload t name d p1 p2) :
    hdrDecode s = .ok (headerEffect t (nameField name) d p1 p2) := by
  have htype : s.inByte 0 = t := State.inByte_of_header h (by decide)
  have hfield {i : Nat} (hi : 11 + i < 17) : s.inByte (11 + i) = (le16 d ++ (le16 p1 ++ le16 p2)).getD i 0 :=
    (State.inByte_of_header h hi).trans (headerPayload_field i)
  have hdata : u16le (s.inByte 11) (s.inByte 12) = d := by
    rw [hfield (i := 0) (by decide), hfield (i := 1) (by decide)]
    exact u16le_le16 hd
  have hparam1 : u16le (s.inByte 13) (s.inByte 14) = p1 := by
    rw [hfield (i := 2) (by decide), hfield (i := 3) (by decide)]
    exact u16le_le16 hp1
  have hparam2 : u16le (s.inByte 15) (s.inByte 16) = p2 := by
    rw [hfield (i := 4) (by decide), hfield (i := 5) (by decide)]
    exact u16le_le16 hp2
  rw [hdrDecode_of_room hready (State.inLen_of_header h) hout, htype, State.inBytes_of_header h, hdata, hparam1, hparam2]

end

/-! ## HDR_ENCODE (42_header R143) -/

/-- The header that HDR_ENCODE builds from its arguments and the first ten bytes of IN. -/
def State.argHeader (s : State) : List Byte :=
  headerPayload s.argHeaderType (s.inBytes 0 (min s.inLen.toNat 10)) s.argDataLength s.argParam1 s.argParam2

theorem State.argHeader_length (s : State) : s.argHeader.length = 17 := headerPayload_length _ _ _ _ _

/-- The bytes of that header, each from its register or from IN. -/
theorem State.argHeader_eq (s : State) : s.argHeader
    = [s.arg0.extractLsb' 0 8] ++ s.inBytes 0 (min s.inLen.toNat 10) ++ List.replicate (10 - s.inLen.toNat) 0x20
      ++ [s.arg1.extractLsb' 0 8, s.arg1.extractLsb' 8 8, s.arg2.extractLsb' 0 8, s.arg2.extractLsb' 8 8,
        s.arg3.extractLsb' 0 8, s.arg3.extractLsb' 8 8] := by
  have hlength : (s.inBytes 0 (min s.inLen.toNat 10)).length = min s.inLen.toNat 10 := s.inBytes_length _ _
  have hpad : 10 - min s.inLen.toNat 10 = 10 - s.inLen.toNat := by omega
  rw [State.argHeader, headerPayload, nameField_of_short (hlength.trans_le (Nat.min_le_right _ _)), hlength, hpad,
    State.argDataLength, State.argParam1, State.argParam2, le16_extractLsb', le16_extractLsb', le16_extractLsb']
  simp [State.argHeaderType]

/-- With the regions checked, only the room in OUT is left to check. -/
theorem hdrEncode_of_ready (hready : s.InOutReady) :
    hdrEncode s = (checkOutput s s.argHeader >>= fun _ => .ok { out := some s.argHeader, res0 := some 17 }) := by
  rw [hdrEncode, checkInOut_ok s hready]
  rfl

theorem hdrEncode_of_overflow (hready : s.InOutReady) (hout : s.outLen.toNat < 17) :
    hdrEncode s = .error (.outputOverflow 17) := by
  rw [hdrEncode_of_ready hready, checkOutput_error s _ (s.argHeader_length.symm ▸ hout), bind_error, s.argHeader_length]

theorem hdrEncode_of_room (hready : s.InOutReady) (hout : 17 ≤ s.outLen.toNat) :
    hdrEncode s = .ok { out := some s.argHeader, res0 := some 17 } := by
  rw [hdrEncode_of_ready hready, checkOutput_ok s _ (s.argHeader_length.symm ▸ hout), bind_ok]

end

/-! ## The statements -/

/-- Settles O26: the checks of IN and OUT, the length of IN, then the room in OUT. -/
theorem hdrDecodeReadsTheHeaderFields : Obligations.HdrDecodeReadsTheHeaderFields := by
  refine ⟨rfl, fun s hd => ⟨inOutChecked_of_first rfl, fun hready hlen => ?malformed, fun hready hlen hout => ?overflow,
    fun hready hlen hout => ?room⟩⟩
  case malformed => exact exec_of_error .hdrDecode (hdrDecode_of_malformed hready hlen)
  case overflow => exact exec_of_error .hdrDecode (hdrDecode_of_overflow hready hlen hout)
  case room =>
    exact ⟨_, (exec_of_ok .hdrDecode hd (hdrDecode_of_room hready hlen hout) :), s.wroteOut_committed (s.inBytes 1 10)⟩

/-- Settles O27: the checks of IN and OUT, then the room in OUT; the output is the header of the arguments. -/
theorem hdrEncodeBuildsTheHeader : Obligations.HdrEncodeBuildsTheHeader := by
  refine ⟨rfl, fun s hd => ⟨inOutChecked_of_first rfl, fun hready hout => ?overflow, fun hready hout => ?room⟩⟩
  case overflow => exact exec_of_error .hdrEncode (hdrEncode_of_overflow hready hout)
  case room =>
    have hwrote := s.wroteOut_committed s.argHeader
    exact ⟨_, (exec_of_ok .hdrEncode hd (hdrEncode_of_room hready hout) :), s.argHeader_eq ▸ hwrote⟩

/-- Settles O28: HDR_DECODE reads back the bytes of HeaderPayload, and the padding of a name is all TRIM bytes. -/
theorem headerDecodeInvertsHeaderPayload : Obligations.HeaderDecodeInvertsHeaderPayload := by
  refine ⟨fun s t name d p1 p2 hdist hready hout hd hp1 hp2 h => ?decode, fun name hlength htrim => ?name⟩
  case decode =>
    exact ⟨_, (exec_of_ok .hdrDecode hdist (hdrDecode_of_headerPayload hready hout hd hp1 hp2 h) :),
      s.wroteOut_committed (nameField name)⟩
  case name => rw [trimLen_nameField hlength, htrim, nameField_of_short hlength, List.take_left]

end Sys2Proof.Machine
end

section
/-! The container scan (43_container R161): the scan without its fuel, and what it makes of concatenated stored blocks and of
what follows them. -/

namespace Sys2Proof.Machine

/-! ## The scan, without its fuel (43_container R161, R164) -/

/-- More fuel than the bytes left gives no other answer. -/
theorem containerFrom_of_fuel (t : List Byte) (verify : Bool) {fuel q : Nat} (h : t.length - q ≤ fuel) :
    containerFrom t verify fuel q = containerFrom t verify (t.length - q) q := by
  induction fuel, h using Nat.le_induction with
  | base => rfl
  | succ fuel h ih => rw [containerFrom_fuel t verify fuel q h, ih]

/-- The scan from offset q with as much fuel as there are bytes left; from offset 0 it is `containerParse`. -/
def containerAt (t : List Byte) (verify : Bool) (q : Nat) : Except CmdError (List Block) :=
  containerFrom t verify (t.length - q) q

theorem containerParse_eq_containerAt (t : List Byte) (verify : Bool) : containerParse t verify = containerAt t verify 0 := rfl

section
variable {t : List Byte} {verify : Bool} {q next : Nat} {b : Block}

theorem containerAt_at_end (h : t.length ≤ q) : containerAt t verify q = .ok [] := by
  rw [containerAt, Nat.sub_eq_zero_of_le h, containerFrom]

/-- Before the end, the scan is ParseBlock, the check of VERIFY, and the scan from the offset after the block. -/
theorem containerAt_before_end (h : q < t.length) : containerAt t verify q = (parseBlock t q >>= fun r =>
    verifyBlock verify r.1 q >>= fun _ => containerAt t verify r.2 >>= fun rest => .ok (r.1 :: rest)) := by
  rw [containerAt, show t.length - q = t.length - q - 1 + 1 by omega, containerFrom, if_pos h]
  cases hparse : parseBlock t q with
  | error e => rfl
  | ok r =>
    have := parseBlock_progress t q r hparse
    rw [bind_ok, bind_ok, containerFrom_of_fuel t verify (show t.length - r.2 ≤ t.length - q - 1 by omega)]
    rfl

theorem containerAt_of_no_block (h : q < t.length) (hparse : parseBlock t q = .error (.outOfBounds q)) :
    containerAt t verify q = .error (.outOfBounds q) := by
  rw [containerAt_before_end h, hparse, bind_error]

theorem containerAt_of_mismatch (h : q < t.length) (hparse : parseBlock t q = .ok (b, next)) (hempty : b.empty = false)
    (hok : b.ok = false) : containerAt t true q = .error (.checksumMismatch q) := by
  rw [containerAt_before_end h, hparse, bind_ok, verifyBlock_error q hempty hok, bind_error]

theorem containerAt_of_block (h : q < t.length) (hparse : parseBlock t q = .ok (b, next))
    (hverify : verify = true → b.empty = true ∨ b.ok = true) :
    containerAt t verify q = (containerAt t verify next >>= fun rest => .ok (b :: rest)) := by
  rw [containerAt_before_end h, hparse, bind_ok, verifyBlock_ok q hverify, bind_ok]

end

/-! ## Stored blocks one after another (30_encoding R80, R82) -/

section
variable {b : Option (Byte × List Byte × Byte)} {bs : List (Option (Byte × List Byte × Byte))} {verify : Bool}

theorem storedBlock_length_pos : 0 < (storedBlock b).length := by
  obtain _ | ⟨flag, payload, csum⟩ := b
  · exact Nat.two_pos
  · exact Nat.succ_pos _

/-- An empty block parses wherever it stands (43_container R165). -/
theorem parseBlock_storedBlock_none (before rest : List Byte) :
    parseBlock (before ++ (storedBlock none ++ rest)) before.length = .ok (decodedBlock none, before.length + 2) :=
  parseBlock_of_empty (by simp [storedBlock]) (by simp [storedBlock, u16le])

/-- A stored block, empty or not, parses to what it stores and ends where the next one starts. -/
theorem parseBlock_stored (before rest : List Byte)
    (h : ∀ flag payload csum, b = some (flag, payload, csum) → payload.length ≤ 65534) :
    parseBlock (before ++ (storedBlock b ++ rest)) before.length
      = .ok (decodedBlock b, (before ++ storedBlock b).length) := by
  obtain _ | ⟨flag, payload, csum⟩ := b
  · rw [parseBlock_storedBlock_none, List.length_append]
    rfl
  · rw [parseBlock_storedBlock before rest (h _ _ _ rfl), storedBlock_some]
    simp

theorem decodedBlock_verified (h : checksumAgrees b = true) : (decodedBlock b).empty = true ∨ (decodedBlock b).ok = true := by
  obtain _ | ⟨flag, payload, csum⟩ := b
  · exact .inl rfl
  · exact .inr h

/-- The scan of stored blocks that pass gives each in order, and then goes on with what follows them. -/
theorem containerAt_stored {t : List Byte} (before rest : List Byte) (ht : t = before ++ (bs.flatMap storedBlock ++ rest))
    (hfits : ∀ flag payload csum, some (flag, payload, csum) ∈ bs → payload.length ≤ 65534)
    (hverify : verify = true → ∀ b ∈ bs, checksumAgrees b = true) :
    containerAt t verify before.length
      = (containerAt t verify (before ++ bs.flatMap storedBlock).length >>= fun found =>
          .ok (bs.map decodedBlock ++ found)) := by
  induction bs generalizing before with
  | nil =>
    rw [List.flatMap_nil, List.append_nil]
    exact (bind_pure _).symm
  | cons b bs ih =>
    rw [List.flatMap_cons, List.append_assoc] at ht
    have hinside : before.length < t.length := by
      have := storedBlock_length_pos (b := b)
      rw [ht, List.length_append, List.length_append]
      omega
    have hparse : parseBlock t before.length = .ok (decodedBlock b, (before ++ storedBlock b).length) :=
      ht ▸ parseBlock_stored before (bs.flatMap storedBlock ++ rest)
        fun _ _ _ hb => hfits _ _ _ (List.mem_cons.mpr (.inl hb.symm))
    have htail := ih (before ++ storedBlock b) (ht.trans (List.append_assoc _ _ _).symm)
      (fun _ _ _ hb => hfits _ _ _ (List.mem_cons_of_mem _ hb)) (fun h c hc => hverify h c (List.mem_cons_of_mem _ hc))
    rw [containerAt_of_block hinside hparse fun h => decodedBlock_verified (hverify h b List.mem_cons_self), htail,
      bind_assoc, List.append_assoc, List.flatMap_cons]
    rfl

/-- `containerParse` of stored blocks that pass, and of what follows them. -/
theorem containerParse_stored (rest : List Byte)
    (hfits : ∀ flag payload csum, some (flag, payload, csum) ∈ bs → payload.length ≤ 65534)
    (hverify : verify = true → ∀ b ∈ bs, checksumAgrees b = true) :
    containerParse (bs.flatMap storedBlock ++ rest) verify
      = (containerAt (bs.flatMap storedBlock ++ rest) verify (bs.flatMap storedBlock).length >>= fun found =>
          .ok (bs.map decodedBlock ++ found)) :=
  (containerParse_eq_containerAt _ verify).trans (containerAt_stored [] rest rfl hfits hverify)

end

/-- A length field and a body with fewer bytes than it asks for do not parse. -/
theorem parseBlock_cut_short (before rest : List Byte) {lo hi : Byte} (hpos : u16le lo hi ≠ 0)
    (hcut : rest.length < u16le lo hi + 1) :
    parseBlock (before ++ lo :: hi :: rest) before.length = .error (.outOfBounds before.length) :=
  parseBlock_of_cut (L := u16le lo hi) (by simp) hpos (by simp; omega)

/-- Settles O29: the scan runs over the blocks that pass, and what follows them decides its answer. -/
theorem containerParseFindsEveryBlock : Obligations.ContainerParseFindsEveryBlock := by
  rintro verify bs image hfits hverify rfl
  have hscan := fun rest => containerParse_stored rest hfits hverify
  refine ⟨?complete, fun x => ?oneByteOver, fun lo hi rest hpos hcut => ?cutShort,
    fun flag payload csum rest hv hlength hsum => ?mismatch⟩
  case complete =>
    have hend := hscan []
    rwa [List.append_nil, containerAt_at_end le_rfl, bind_ok, List.append_nil] at hend
  case oneByteOver =>
    rw [hscan, containerAt_of_no_block (by simp) (parseBlock_of_short (by simp)), bind_error]
  case cutShort =>
    rw [hscan, containerAt_of_no_block (by simp) (parseBlock_cut_short _ _ hpos hcut), bind_error]
  case mismatch =>
    subst hv
    rw [List.append_assoc, hscan, containerAt_of_mismatch (by simp [storedBlock_some]) (parseBlock_storedBlock _ rest hlength)
      rfl (decide_eq_false hsum), bind_error]

end Sys2Proof.Machine
end

section
/-! The container commands (43_container R162, R163): what TAP_DECODE and TAP_ENCODE answer for every state of their registers,
and the state each one ends in. -/

namespace Sys2Proof.Machine

/-- A command that first checks IN, AUX and OUT refuses them as `InAuxOutChecked` says: each clause is one outcome of the
checks (30_encoding R76, R77, R79). -/
theorem inAuxOutChecked_of_first {i : Instr} {s : State} {next : Unit → Except CmdError Effect}
    (hfirst : commandResult i s = (checkInAuxOut s >>= next)) : InAuxOutChecked i s := by
  have refuses {e : CmdError} (he : checkInAuxOut s = .error e) : exec i s = .next (s.aborted e.code e.info) :=
    exec_of_error i (by rw [hfirst, he, bind_error])
  obtain ⟨-, hin, haux, hout, hclearIn, hclearAux⟩ | ⟨herr, hin⟩ | ⟨herr, hin, haux⟩ | ⟨herr, hin, haux, hout⟩
    | ⟨herr, hin, haux, hout, hclearIn⟩ | ⟨herr, hin, haux, hout, hclearIn, hclearAux⟩ := checkInAuxOut_cases s
  · exact ⟨absurd hin, fun _ => absurd haux, fun _ _ => absurd hout, fun _ _ _ => absurd hclearIn,
      fun _ _ _ _ => absurd hclearAux⟩
  · exact ⟨fun _ => refuses herr, fun h => absurd h hin, fun h => absurd h hin, fun h => absurd h hin,
      fun h => absurd h hin⟩
  · exact ⟨absurd hin, fun _ _ => refuses herr, fun _ h => absurd h haux, fun _ h => absurd h haux,
      fun _ h => absurd h haux⟩
  · exact ⟨absurd hin, fun _ => absurd haux, fun _ _ _ => refuses herr, fun _ _ h => absurd h hout,
      fun _ _ h => absurd h hout⟩
  · exact ⟨absurd hin, fun _ => absurd haux, fun _ _ => absurd hout, fun _ _ _ _ => refuses herr,
      fun _ _ _ h => absurd h hclearIn⟩
  · exact ⟨absurd hin, fun _ => absurd haux, fun _ _ => absurd hout, fun _ _ _ => absurd hclearIn,
      fun _ _ _ _ _ => refuses herr⟩

/-! ## The errors of the scan (43_container R161) -/

/-- A sequence of two steps fails in the first or, after it, in the second. -/
theorem bind_eq_error {ε α β : Type} {x : Except ε α} {f : α → Except ε β} {e : ε} (h : (x >>= f) = .error e) :
    x = .error e ∨ ∃ a, x = .ok a ∧ f a = .error e := by
  cases x with
  | error e' =>
    cases h
    exact .inl rfl
  | ok a => exact .inr ⟨a, rfl, h⟩

theorem verifyBlock_eq_error {verify : Bool} {b : Block} {p : Nat} {e : CmdError} (h : verifyBlock verify b p = .error e) :
    e = .checksumMismatch p ∧ verify = true := by
  rw [verifyBlock] at h
  split at h
  next hrefuse =>
    simp only [Bool.and_eq_true] at hrefuse
    obtain ⟨⟨hverify, -⟩, -⟩ := hrefuse
    cases h
    exact ⟨rfl, hverify⟩
  · cases h

/-- The scan fails only as ParseBlock fails or, with VERIFY, on a checksum. -/
theorem containerFrom_error {t : List Byte} {verify : Bool} {fuel q : Nat} {e : CmdError}
    (h : containerFrom t verify fuel q = .error e) :
    ∃ p, e = .outOfBounds p ∨ (e = .checksumMismatch p ∧ verify = true) := by
  induction fuel generalizing q with
  | zero => cases h
  | succ fuel ih =>
    rw [containerFrom] at h
    split at h
    · obtain hparse | ⟨r, -, h⟩ := bind_eq_error h
      · exact ⟨q, .inl (parseBlock_error t q e hparse)⟩
      obtain hverify | ⟨_, -, h⟩ := bind_eq_error h
      · exact ⟨q, .inr (verifyBlock_eq_error hverify)⟩
      obtain hrest | ⟨_, -, h⟩ := bind_eq_error h
      · exact ih hrest
      · cases h
    · cases h

section
variable {s : State} {verify : Bool} {blocks : List Block}

/-! ## TAP_DECODE (43_container R162) -/

theorem tapDecode_of_no_container {e : CmdError} (hready : s.InOutReady) (h : containerParse s.inAll verify = .error e) :
    tapDecode verify s = .error e := by
  rw [tapDecode, checkInOut_ok s hready, h]
  rfl

/-- With the blocks found, only the room in OUT is left to check. -/
theorem tapDecode_of_container (hready : s.InOutReady) (h : containerParse s.inAll verify = .ok blocks) :
    tapDecode verify s = (checkOutput s (blockTable blocks) >>= fun _ => .ok {
      out := some (blockTable blocks)
      res0 := some (word blocks.length)
      res1 := some (word (blockTable blocks).length) }) := by
  rw [tapDecode, checkInOut_ok s hready, h]
  rfl

theorem tapDecode_of_overflow (hready : s.InOutReady) (h : containerParse s.inAll verify = .ok blocks)
    (hout : s.outLen.toNat < (blockTable blocks).length) :
    tapDecode verify s = .error (.outputOverflow (blockTable blocks).length) := by
  rw [tapDecode_of_container hready h, checkOutput_error s _ hout, bind_error]

theorem tapDecode_of_room (hready : s.InOutReady) (h : containerParse s.inAll verify = .ok blocks)
    (hout : (blockTable blocks).length ≤ s.outLen.toNat) : tapDecode verify s = .ok {
      out := some (blockTable blocks)
      res0 := some (word blocks.length)
      res1 := some (word (blockTable blocks).length) } := by
  rw [tapDecode_of_container hready h, checkOutput_ok s _ hout, bind_ok]

/-! ## TAP_ENCODE (43_container R163) -/

/-- The header block of IN and the data block of AUX. -/
def State.headerAndData (s : State) : List Byte := frame 0 s.inAll ++ frame 255 s.auxAll

theorem State.headerAndData_length (s : State) : s.headerAndData.length = s.inLen.toNat + s.auxLen.toNat + 8 := by
  rw [State.headerAndData, List.length_append, frame_length, frame_length, State.inAll_length, State.auxAll_length]
  omega

/-- Both are stored blocks with the right checksums. -/
theorem State.headerAndData_eq (s : State) (hin : s.len .inp ≤ 65534) (haux : s.len .aux ≤ 65534) :
    s.headerAndData
      = [BitVec.ofNat 8 ((s.inLen.toNat + 1) % 256), BitVec.ofNat 8 ((s.inLen.toNat + 1) / 256), 0] ++ s.inAll
        ++ [xorsum 0 s.inAll]
        ++ [BitVec.ofNat 8 ((s.auxLen.toNat + 1) % 256), BitVec.ofNat 8 ((s.auxLen.toNat + 1) / 256), 255] ++ s.auxAll
        ++ [xorsum 255 s.auxAll] := by
  rw [State.headerAndData, s.frame_inAll 0 hin, frame_eq_storedBlock (s.auxAll_length.trans_le haux), storedBlock,
    State.auxAll_length]
  simp only [List.append_assoc]

theorem tapEncode_of_oversized_in (hready : s.InAuxOutReady) (hin : 65534 < s.len .inp) :
    tapEncode s = .error (.encodingError (s.len .inp)) := by
  rw [tapEncode, checkInAuxOut_ok s hready, checkPayload_error hin]
  rfl

theorem tapEncode_of_oversized_aux (hready : s.InAuxOutReady) (hin : s.len .inp ≤ 65534)
    (haux : 65534 < s.len .aux) : tapEncode s = .error (.encodingError (s.len .aux)) := by
  rw [tapEncode, checkInAuxOut_ok s hready, checkPayload_ok hin, checkPayload_error haux]
  rfl

/-- With payloads that fit their length fields, only the room in OUT is left to check. -/
theorem tapEncode_of_payloads (hready : s.InAuxOutReady) (hin : s.len .inp ≤ 65534) (haux : s.len .aux ≤ 65534) :
    tapEncode s = (checkOutput s s.headerAndData >>= fun _ => .ok {
      out := some s.headerAndData
      res0 := some (word (s.inLen.toNat + s.auxLen.toNat + 8))
      res1 := some ((xorsum 0 s.inAll).setWidth 32)
      res2 := some ((xorsum 255 s.auxAll).setWidth 32) }) := by
  rw [tapEncode, checkInAuxOut_ok s hready, checkPayload_ok hin, checkPayload_ok haux, value_byte,
    value_byte]
  rfl

theorem tapEncode_of_overflow (hready : s.InAuxOutReady) (hin : s.len .inp ≤ 65534) (haux : s.len .aux ≤ 65534)
    (hout : s.outLen.toNat < s.inLen.toNat + s.auxLen.toNat + 8) :
    tapEncode s = .error (.outputOverflow (s.inLen.toNat + s.auxLen.toNat + 8)) := by
  rw [tapEncode_of_payloads hready hin haux, checkOutput_error s _ (s.headerAndData_length.symm ▸ hout), bind_error,
    s.headerAndData_length]

theorem tapEncode_of_room (hready : s.InAuxOutReady) (hin : s.len .inp ≤ 65534) (haux : s.len .aux ≤ 65534)
    (hout : s.inLen.toNat + s.auxLen.toNat + 8 ≤ s.outLen.toNat) : tapEncode s = .ok {
      out := some s.headerAndData
      res0 := some (word (s.inLen.toNat + s.auxLen.toNat + 8))
      res1 := some ((xorsum 0 s.inAll).setWidth 32)
      res2 := some ((xorsum 255 s.auxAll).setWidth 32) } := by
  rw [tapEncode_of_payloads hready hin haux, checkOutput_ok s _ (s.headerAndData_length.symm ▸ hout), bind_ok]

end

/-! ## The statements -/

/-- Settles O31: the checks of IN and OUT, the scan's error, then the room in OUT. -/
theorem tapDecodeWritesTheBlockTable : Obligations.TapDecodeWritesTheBlockTable := by
  refine ⟨rfl, rfl, fun verify s hd => ⟨inOutChecked_of_first rfl, fun e hready hparse => ?failed,
    fun blocks hready hparse hout => ?overflow, fun blocks hready hparse hout => ?room⟩⟩
  case failed =>
    have hexec := exec_of_error (.tapDecode verify) (tapDecode_of_no_container hready hparse)
    obtain ⟨q, rfl | ⟨rfl, hverify⟩⟩ := containerFrom_error hparse
    · exact ⟨q, .inl ⟨rfl, hexec⟩⟩
    · exact ⟨q, .inr ⟨rfl, hverify, hexec⟩⟩
  case overflow => exact exec_of_error (.tapDecode verify) (tapDecode_of_overflow hready hparse hout)
  case room =>
    exact ⟨_, (exec_of_ok (.tapDecode verify) hd (tapDecode_of_room hready hparse hout) :), s.wroteOut_committed _⟩

/-- Settles O32: the checks of IN, AUX and OUT, the bound of each payload, then the room in OUT; the output is the two stored
blocks with the right checksums. -/
theorem tapEncodeFramesHeaderAndData : Obligations.TapEncodeFramesHeaderAndData := by
  refine ⟨rfl, ?_⟩
  rintro s _ _ _ _ _ _ hd rfl rfl rfl rfl rfl rfl
  refine ⟨inAuxOutChecked_of_first rfl, fun hready hin => ?oversizedIn, fun hready hin haux => ?oversizedAux,
    fun hready hin haux hout => ?overflow, fun hready hin haux hout => ?room⟩
  case oversizedIn => exact exec_of_error .tapEncode (tapEncode_of_oversized_in hready hin)
  case oversizedAux => exact exec_of_error .tapEncode (tapEncode_of_oversized_aux hready hin haux)
  case overflow => exact exec_of_error .tapEncode (tapEncode_of_overflow hready hin haux hout)
  case room =>
    have hwrote := s.wroteOut_committed s.headerAndData
    exact ⟨_, (exec_of_ok .tapEncode hd (tapEncode_of_room hready hin haux hout) :),
      s.headerAndData_eq hin haux ▸ hwrote⟩

end Sys2Proof.Machine
end

section
/-! The attribute commands (44_sprite R190, R191): the fields of an attribute byte as shifts and masks of registers. -/

namespace Sys2Proof.Machine

/-! ## Fields of a register (00_scope R15) -/

/-- A field of n bits from bit k of a register, zero-extended, is a shift and a mask. -/
theorem field_eq_mask (w : Word) (k : Nat) {n : Nat} (hn : n ≤ 32) :
    (w.extractLsb' k n).setWidth 32 = (w >>> k) &&& BitVec.ofNat 32 (2 ^ n - 1) := by
  have hpow : 2 ^ n ≤ 2 ^ 32 := Nat.pow_le_pow_right (by decide) hn
  refine BitVec.eq_of_toNat_eq ?_
  rw [BitVec.toNat_setWidth, BitVec.extractLsb'_toNat, BitVec.toNat_and, BitVec.toNat_ushiftRight, BitVec.toNat_ofNat,
    Nat.mod_eq_of_lt (a := 2 ^ n - 1) (by omega), Nat.and_two_pow_sub_one_eq_mod]
  exact Nat.mod_eq_of_lt ((Nat.mod_lt _ (Nat.two_pow_pos n)).trans_le hpow)

/-- A field of the low byte of a register is that field of the register. -/
theorem extractLsb'_lowByte (w : Word) {k n : Nat} (h : k + n ≤ 8) :
    (w.extractLsb' 0 8).extractLsb' k n = w.extractLsb' k n := by
  ext i hi
  simp [show k + i < 8 by omega]

/-- A field taken out of a register and put back in its place is the register with every other bit masked out. -/
theorem shiftRight_mask_shiftLeft (w m : Word) (k : Nat) : ((w >>> k) &&& m) <<< k = w &&& (m <<< k) := by
  rw [BitVec.shiftLeft_and_distrib, BitVec.shiftLeft_ushiftRight, BitVec.and_assoc, ← BitVec.shiftLeft_and_distrib,
    BitVec.allOnes_and]

theorem mask_mask (w m : Word) : (w &&& m) &&& m = w &&& m := by
  rw [BitVec.and_assoc, BitVec.and_self]

/-! ## The commands -/

/-- What ATTR_UNPACK answers: each field of ARG0 by its shift and its mask. -/
theorem attrUnpack_eq (s : State) : attrUnpack s = .ok {
    res0 := some (s.arg0 &&& 7)
    res1 := some ((s.arg0 >>> 3) &&& 7)
    res2 := some ((s.arg0 >>> 6) &&& 1)
    res3 := some ((s.arg0 >>> 7) &&& 1) } := by
  have field {k n : Nat} (h : k + n ≤ 8) : (s.argAttr.extractLsb' k n).setWidth 32
      = (s.arg0 >>> k) &&& BitVec.ofNat 32 (2 ^ n - 1) := by
    rw [State.argAttr, extractLsb'_lowByte _ h, field_eq_mask _ _ (by omega)]
  rw [attrUnpack, attrInk, attrPaper, attrBright, attrFlash, field (by decide), field (by decide), field (by decide),
    field (by decide), BitVec.ushiftRight_zero]
  rfl

/-- What ATTR_PACK answers: the masked fields of its four arguments, each shifted to its place. -/
theorem attrPack_eq (s : State) : attrPack s = .ok {
    res0 := some
      ((s.arg0 &&& (7 : Word)) ||| ((s.arg1 &&& 7) <<< 3) ||| ((s.arg2 &&& 1) <<< 6) ||| ((s.arg3 &&& 1) <<< 7)) } := by
  have low (w : Word) {n : Nat} (h : n ≤ 32) : (w.extractLsb' 0 n).setWidth 32 = w &&& BitVec.ofNat 32 (2 ^ n - 1) := by
    rw [field_eq_mask _ _ h, BitVec.ushiftRight_zero]
  rw [attrPack, attrJoin, State.argInk, State.argPaper, State.argBright, State.argFlash, low _ (by decide),
    low _ (by decide), low _ (by decide), low _ (by decide)]
  rfl

/-- The four fields of a register's low byte, put back in their places, are that byte (44_sprite R191). -/
theorem join_fields (w : Word) :
    (w &&& (7 : Word)) ||| (((w >>> 3) &&& 7) <<< 3) ||| (((w >>> 6) &&& 1) <<< 6) ||| (((w >>> 7) &&& 1) <<< 7)
      = w &&& 0xFF := by
  simp only [shiftRight_mask_shiftLeft, ← BitVec.and_or_distrib_left]
  rfl

/-- Settles O40: ATTR_UNPACK has no check, and its results are the shifted and masked fields. -/
theorem attrUnpackSplitsTheByte : Obligations.AttrUnpackSplitsTheByte :=
  ⟨rfl, fun s hd => (exec_of_ok .attrUnpack hd (attrUnpack_eq s) :)⟩

/-- Settles O41: ATTR_PACK has no check; and masking ATTR_UNPACK's results again changes nothing, so that they join to the
byte they were split from. -/
theorem attrPackJoinsTheFields : Obligations.AttrPackJoinsTheFields := by
  refine ⟨rfl, fun s hd => (exec_of_ok .attrPack hd (attrPack_eq s) :), fun s t u hd ht hu => ?law⟩
  case law =>
    rw [exec_of_ok .attrUnpack hd (attrUnpack_eq s)] at ht
    cases ht
    rw [exec_of_ok .attrPack rfl (attrPack_eq _)] at hu
    cases hu
    simp only [State.apply_res0, State.apply_res1, State.apply_res2, State.apply_res3, Option.getD_some, mask_mask]
    exact join_fields s.arg0

end Sys2Proof.Machine
end

section
/-! The USF image (44_sprite R184, 30_encoding R86): the parser gives back complete entries and goes on with what follows
them, and it fails only as the first entry that is not complete says. -/

namespace Sys2Proof.Machine

/-- An entry that a USF image can hold: no zero dimension, and the bytes that its dimensions ask for (30_encoding R86). -/
structure Entry.Complete (e : Entry) : Prop where
  widthPos : e.w ≠ 0
  heightPos : e.h ≠ 0
  pixelCount : e.pixels.length = 64 * e.w.toNat * e.h.toNat
  attrCount : e.attrs.length = e.w.toNat * e.h.toNat

theorem Entry.Valid.complete {e : Entry} (h : e.Valid) : e.Complete := ⟨h.widthPos, h.heightPos, h.pixelCount, h.attrCount⟩

/-! ## One turn of the parser, at the start of what is left of the image -/

/-- Byte k of what follows `before`. -/
theorem getD_append_add (before rest : List Byte) (k : Nat) :
    (before ++ rest).getD (before.length + k) 0 = rest.getD k 0 := by
  rw [List.getD_append_right _ _ _ _ (Nat.le_add_right _ _), Nat.add_sub_cancel_left]

theorem length_append_sub (before rest : List Byte) : (before ++ rest).length - before.length = rest.length := by
  rw [List.length_append, Nat.add_sub_cancel_left]

theorem parseEntries_of_short (before : List Byte) {rest : List Byte} (n : Nat) (h : rest.length < 2) :
    parseEntries (before ++ rest) (n + 1) before.length = .error (.outOfBounds before.length) := by
  rw [parseEntries, length_append_sub, if_pos h]

/-- With two bytes left, they are the dimensions: one of them is zero, the entry is cut short, or it is there. -/
theorem parseEntries_of_dims (before : List Byte) (w h : Byte) (tail : List Byte) (n : Nat) :
    parseEntries (before ++ w :: h :: tail) (n + 1) before.length
      = if w = 0 ∨ h = 0 then .error (.invalidRecord before.length)
        else if (w :: h :: tail).length < entrySize w.toNat h.toNat then .error (.outOfBounds before.length)
        else parseEntries (before ++ w :: h :: tail) n (before.length + entrySize w.toNat h.toNat) >>= fun rest =>
          .ok (entryAt (before ++ w :: h :: tail) before.length w h :: rest) := by
  have hw : (before ++ w :: h :: tail).getD before.length 0 = w := getD_append_add before _ 0
  have hh : (before ++ w :: h :: tail).getD (before.length + 1) 0 = h := getD_append_add before _ 1
  have hdims : ¬ (w :: h :: tail).length < 2 := Nat.not_lt_of_le (Nat.le_add_left 2 tail.length)
  rw [parseEntries, length_append_sub, if_neg hdims, hw, hh]

/-- A complete entry parses to itself, and the parser goes on where it ends. -/
theorem parseEntries_entry (before rest : List Byte) {e : Entry} (he : e.Complete) (n : Nat) :
    parseEntries (before ++ (e.bytes ++ rest)) (n + 1) before.length
      = (parseEntries (before ++ (e.bytes ++ rest)) n (before ++ e.bytes).length >>= fun ents => .ok (e :: ents)) := by
  have hsize := Entry.bytes_length e he.pixelCount he.attrCount
  have hbytes : e.bytes ++ rest = e.w :: e.h :: (e.pixels ++ e.attrs ++ rest) := by simp [Entry.bytes]
  have hroom : ¬ (e.bytes ++ rest).length < entrySize e.w.toNat e.h.toNat := by
    rw [List.length_append, hsize]
    omega
  rw [hbytes, parseEntries_of_dims, if_neg (not_or.mpr ⟨he.widthPos, he.heightPos⟩), ← hbytes, if_neg hroom,
    entryAt_bytes before rest e he.pixelCount he.attrCount, List.length_append, hsize]

/-! ## Complete entries one after another -/

theorem parseEntries_entries {t : List Byte} {ents : List Entry} (before rest : List Byte)
    (ht : t = before ++ (ents.flatMap Entry.bytes ++ rest)) (hents : ∀ e ∈ ents, e.Complete) (n : Nat) :
    parseEntries t (ents.length + n) before.length
      = (parseEntries t n (before ++ ents.flatMap Entry.bytes).length >>= fun found => .ok (ents ++ found)) := by
  induction ents generalizing before with
  | nil =>
    rw [List.length_nil, Nat.zero_add, List.flatMap_nil, List.append_nil]
    exact (bind_pure _).symm
  | cons e ents ih =>
    obtain ⟨he, hents⟩ := List.forall_mem_cons.mp hents
    rw [List.flatMap_cons, List.append_assoc] at ht
    have hentry := parseEntries_entry before (ents.flatMap Entry.bytes ++ rest) he (ents.length + n)
    have htail := ih (before ++ e.bytes) (ht.trans (List.append_assoc _ _ _).symm) hents
    rw [← ht, htail, bind_assoc, List.append_assoc, ← List.flatMap_cons] at hentry
    rw [List.length_cons, Nat.add_right_comm, hentry]
    rfl

section
variable {ents : List Entry} {rest : List Byte} {count : Byte}

/-- ParseUSF of a count, complete entries and what follows them, when at least these are counted. -/
theorem parseUsf_entries {n : Nat} (hents : ∀ e ∈ ents, e.Complete) (hcount : count.toNat = ents.length + n) :
    parseUsf (count :: ents.flatMap Entry.bytes ++ rest)
      = (parseEntries (count :: ents.flatMap Entry.bytes ++ rest) n (count :: ents.flatMap Entry.bytes).length
          >>= fun found => .ok (ents ++ found)) := by
  have hrun := parseEntries_entries [count] rest rfl hents n
  rwa [← hcount] at hrun

theorem parseUsf_complete (hents : ∀ e ∈ ents, e.Complete) (hcount : ents.length = count.toNat) :
    parseUsf (count :: ents.flatMap Entry.bytes ++ rest) = .ok ents := by
  rw [parseUsf_entries hents (n := 0) hcount.symm, parseEntries, bind_ok, List.append_nil]

/-- When more entries are counted, an error where the complete ones end is the image's error. -/
theorem parseUsf_error_after {e : CmdError} (hents : ∀ e ∈ ents, e.Complete) (hcount : ents.length < count.toNat)
    (h : ∀ n, parseEntries (count :: ents.flatMap Entry.bytes ++ rest) (n + 1) (count :: ents.flatMap Entry.bytes).length
      = .error e) : parseUsf (count :: ents.flatMap Entry.bytes ++ rest) = .error e := by
  obtain ⟨n, hn⟩ := Nat.exists_eq_add_of_lt hcount
  rw [parseUsf_entries hents (n := n + 1) hn, h, bind_error]

end

/-- Settles O35: the parser runs over the complete entries, and what follows them decides its answer. -/
theorem usfParsingFindsTheEntriesOrTheFirstBadOne : Obligations.UsfParsingFindsTheEntriesOrTheFirstBadOne := by
  refine ⟨rfl, ?_⟩
  rintro count ents _ rest hparts rfl
  have hents : ∀ e ∈ ents, e.Complete := fun e he =>
    have ⟨hw, hh, hp, ha⟩ := hparts e he
    ⟨hw, hh, hp, ha⟩
  rw [Nat.add_comm 1]
  refine ⟨parseUsf_complete hents, fun hcount hshort => ?short, ?zeroDim, ?cutShort⟩
  case short => exact parseUsf_error_after hents hcount fun n => parseEntries_of_short _ n hshort
  case zeroDim =>
    rintro w h tail hcount rfl hzero
    exact parseUsf_error_after hents hcount fun n => (parseEntries_of_dims _ w h tail n).trans (if_pos hzero)
  case cutShort =>
    rintro w h tail hcount rfl hw hh hcut
    refine parseUsf_error_after hents hcount fun n => ?_
    rw [parseEntries_of_dims, if_neg (not_or.mpr ⟨hw, hh⟩)]
    exact if_pos hcut

/-! ## The errors of the parser (44_sprite R184) -/

theorem parseEntries_error {t : List Byte} {n o : Nat} {e : CmdError} (h : parseEntries t n o = .error e) :
    ∃ p, e = .outOfBounds p ∨ e = .invalidRecord p := by
  induction n generalizing o with
  | zero => cases h
  | succ n ih =>
    rw [parseEntries] at h
    split at h
    · cases h
      exact ⟨o, .inl rfl⟩
    simp only at h
    split at h
    · cases h
      exact ⟨o, .inr rfl⟩
    split at h
    · cases h
      exact ⟨o, .inl rfl⟩
    obtain hrest | ⟨_, -, h⟩ := bind_eq_error h
    · exact ih hrest
    · cases h

theorem parseUsf_error {t : List Byte} {e : CmdError} (h : parseUsf t = .error e) :
    ∃ p, e = .outOfBounds p ∨ e = .invalidRecord p := by
  rw [parseUsf] at h
  split at h
  · cases h
    exact ⟨0, .inl rfl⟩
  · exact parseEntries_error h

end Sys2Proof.Machine
end

section
/-! The address chain (44_sprite R186): a chain is the packed records one after another, each with the address of the next,
and it fails at the first next address that does not fit 16 bits. -/

namespace Sys2Proof.Machine

/-! ## Addresses -/

/-- Past the first record, the addresses are those of the rest, which starts where the first ends. -/
theorem recordAddress_cons_succ (start : Nat) (e : Entry) (ents : List Entry) (k : Nat) :
    recordAddress start (e :: ents) (k + 1) = recordAddress (start + e.recordSize) ents k := by
  simp [recordAddress, Nat.add_assoc]

theorem nextAddress_of_ne_nil (addr : Nat) (e : Entry) {rest : List Entry} (h : rest ≠ []) :
    nextAddress addr e rest = recordAddress addr (e :: rest) 1 := by
  rw [nextAddress, if_neg (by simpa using h), recordAddress_cons_succ]
  rfl

/-- The next address of the first record, as the statement on chains gives it. -/
theorem nextAddress_eq (addr : Nat) (e : Entry) (rest : List Entry) :
    nextAddress addr e rest = if 0 + 1 = (e :: rest).length then 0 else recordAddress addr (e :: rest) (0 + 1) := by
  obtain rfl | hrest := eq_or_ne rest []
  · rfl
  · rw [nextAddress_of_ne_nil addr e hrest, if_neg]
    simpa [eq_comm] using hrest

/-! ## One record of a chain -/

/-- A chain that succeeds is its first record and the chain of the others. -/
theorem chainFrom_cons_ok {e : Entry} {rest : List Entry} {id addr : Nat} {out : List Byte}
    (h : chainFrom (e :: rest) id addr = .ok out) :
    nextAddress addr e rest ≤ 0xFFFF ∧ ∃ tail, chainFrom rest (id + 1) (addr + e.recordSize) = .ok tail
      ∧ out = packRecord id (nextAddress addr e rest) e ++ tail := by
  rw [chainFrom] at h
  split at h
  · cases h
  next hfits =>
    obtain ⟨tail, htail, hout⟩ := bind_eq_ok _ _ _ h
    cases hout
    exact ⟨Nat.le_of_not_lt hfits, tail, htail, rfl⟩

/-- A chain fails at its first next address or, when that fits, in the chain of the others. -/
theorem chainFrom_cons_error {e : Entry} {rest : List Entry} {id addr : Nat} {err : CmdError}
    (h : chainFrom (e :: rest) id addr = .error err) :
    (0xFFFF < nextAddress addr e rest ∧ err = .encodingError (nextAddress addr e rest))
      ∨ (nextAddress addr e rest ≤ 0xFFFF ∧ chainFrom rest (id + 1) (addr + e.recordSize) = .error err) := by
  rw [chainFrom] at h
  split at h
  next hpast =>
    cases h
    exact .inl ⟨hpast, rfl⟩
  next hfits =>
    obtain htail | ⟨_, -, h⟩ := bind_eq_error h
    · exact .inr ⟨Nat.le_of_not_lt hfits, htail⟩
    · cases h

/-! ## The whole chain -/

/-- The packed record of an id, a next address and a sprite. -/
def recordBytes (r : Nat × Nat × Entry) : List Byte := packRecord r.1 r.2.1 r.2.2

section
variable {ents : List Entry} {id addr : Nat} {out : List Byte}

theorem chainFrom_addresses_fit (h : chainFrom ents id addr = .ok out) {k : Nat} (hk : k + 1 < ents.length) :
    recordAddress addr ents (k + 1) ≤ 0xFFFF := by
  induction ents generalizing id addr out k with
  | nil => cases hk
  | cons e rest ih =>
    obtain ⟨hfits, tail, htail, -⟩ := chainFrom_cons_ok h
    have hrest : rest ≠ [] := by
      rintro rfl
      simp at hk
    cases k with
    | zero => rwa [nextAddress_of_ne_nil addr e hrest] at hfits
    | succ k =>
      rw [recordAddress_cons_succ]
      exact ih htail (Nat.lt_of_succ_lt_succ hk)

/-- Record k stands after the records before it. -/
theorem chainFrom_record (h : chainFrom ents id addr = .ok out) {k : Nat} {e : Entry} (hk : ents[k]? = some e) :
    (out.drop ((ents.take k).map Entry.recordSize).sum).take e.recordSize
      = packRecord (id + k) (if k + 1 = ents.length then 0 else recordAddress addr ents (k + 1)) e := by
  induction ents generalizing id addr out k with
  | nil => cases hk
  | cons first rest ih =>
    obtain ⟨-, tail, htail, rfl⟩ := chainFrom_cons_ok h
    cases k with
    | zero =>
      obtain rfl : first = e := by simpa using hk
      rw [nextAddress_eq]
      exact List.take_left' (packRecord_length _ _ _)
    | succ k =>
      have hrecord := ih htail (k := k) (by simpa using hk)
      rw [List.take_succ_cons, List.map_cons, List.sum_cons, ← List.drop_drop, List.drop_left' (packRecord_length _ _ _),
        hrecord, recordAddress_cons_succ, List.length_cons, Nat.add_assoc id, Nat.add_comm 1]
      simp only [Nat.add_right_cancel_iff]

/-- A failed chain names the first next address above 0xFFFF. -/
theorem chainFrom_error {err : CmdError} (h : chainFrom ents id addr = .error err) :
    ∃ k, k + 1 < ents.length ∧ 0xFFFF < recordAddress addr ents (k + 1)
      ∧ (∀ j, j < k → recordAddress addr ents (j + 1) ≤ 0xFFFF)
      ∧ err = .encodingError (recordAddress addr ents (k + 1)) := by
  induction ents generalizing id addr with
  | nil => cases h
  | cons e rest ih =>
    have hrest : rest ≠ [] := by
      rintro rfl
      cases h
    have hnext := nextAddress_of_ne_nil addr e hrest
    obtain ⟨hpast, herr⟩ | ⟨hfits, htail⟩ := chainFrom_cons_error h
    · rw [hnext] at hpast herr
      exact ⟨0, by simpa [List.length_pos_iff] using hrest, hpast, nofun, herr⟩
    · obtain ⟨k, hk, hpast, hbefore, herr⟩ := ih htail
      rw [← recordAddress_cons_succ] at hpast herr
      refine ⟨k + 1, Nat.succ_lt_succ hk, hpast, fun j hj => ?_, herr⟩
      cases j with
      | zero => rwa [hnext] at hfits
      | succ j =>
        rw [recordAddress_cons_succ]
        exact hbefore j (Nat.lt_of_succ_lt_succ hj)

/-- A chain as the records that the packed scan will find: consecutive ids, in the order of the entries. -/
theorem chainFrom_records (h : chainFrom ents id addr = .ok out) :
    ∃ recs : List (Nat × Nat × Entry), ents = recs.map (fun r => r.2.2) ∧ out = recs.flatMap recordBytes
      ∧ ∀ r ∈ recs, id ≤ r.1 ∧ r.1 < id + ents.length := by
  induction ents generalizing id addr out with
  | nil =>
    cases h
    exact ⟨[], rfl, rfl, nofun⟩
  | cons e rest ih =>
    obtain ⟨-, tail, htail, rfl⟩ := chainFrom_cons_ok h
    obtain ⟨recs, rfl, rfl, hids⟩ := ih htail
    refine ⟨(id, nextAddress addr e _, e) :: recs, rfl, rfl, List.forall_mem_cons.mpr ⟨?first, fun r hr => ?others⟩⟩
    case first => simp
    case others =>
      obtain ⟨hlow, hhigh⟩ := hids r hr
      rw [List.length_cons]
      omega

end

/-- Settles O34: each record of a chain, and each error, by induction on the records. -/
theorem chainLinksEachRecordToTheNext : Obligations.ChainLinksEachRecordToTheNext := by
  refine fun ents start => ⟨fun out hout =>
    ⟨chainFrom_length ents 1 start out hout, fun k hk => ?fits, fun k e hk => ?record⟩, fun err herr => chainFrom_error herr⟩
  case fits => exact chainFrom_addresses_fit hout hk
  case record => rw [chainFrom_record hout hk, Nat.add_comm]

end Sys2Proof.Machine
end

section
/-! The packed scan (44_sprite R183, R185, R189): unpacking inverts packing one record at a time, the scan runs over packed
records whatever their ids and next addresses, and what follows them gives the reason it stops. -/

namespace Sys2Proof.Machine

/-! ## Unpacking one record (44_sprite R183, R189 law 1) -/

/-- A list of m * n bytes, read row by row. -/
theorem flatMap_map_range_getD {m n : Nat} {l : List Byte} (h : l.length = m * n) :
    (List.range m).flatMap (fun r => (List.range n).map (fun x => l.getD (r * n + x) 0)) = l := by
  refine List.ext_getElem? fun i => ?_
  by_cases hi : i < m * n
  · have hn : 0 < n := Nat.pos_of_mul_pos_left (Nat.zero_lt_of_lt hi)
    have hrow : i / n < m := Nat.div_lt_of_lt_mul (Nat.mul_comm m n ▸ hi)
    have hcell := flatMap_map_range_getElem? (fun r x => l.getD (r * n + x) 0) hrow (Nat.mod_lt i hn)
    rw [Nat.div_add_mod'] at hcell
    rw [hcell, List.getD_eq_getElem?_getD, List.getElem?_eq_getElem (h.symm ▸ hi), Option.getD_some]
  · rw [List.getElem?_eq_none (by rw [flatMap_map_range_length]; omega), List.getElem?_eq_none (by omega)]

/-- The last bit of a shifted byte is a bit of the byte. -/
theorem shiftRight_and_one (x : Byte) (k : Nat) : (x >>> k) &&& 1 = if x.getLsbD k then 1 else 0 := by
  have hbit : (x >>> k).getLsbD 0 = x.getLsbD k := BitVec.getLsbD_ushiftRight x k 0
  rw [show (1 : Byte) = 1#8 from rfl, BitVec.and_one_eq_setWidth_ofBool_getLsbD, hbit]
  cases x.getLsbD k <;> rfl

/-- Byte k of the record that stands after `before`. -/
theorem getD_packRecord (before rest : List Byte) {id nxt k : Nat} {e : Entry} {b : Byte}
    (h : (packRecord id nxt e)[k]? = some b) : (before ++ (packRecord id nxt e ++ rest)).getD (before.length + k) 0 = b := by
  obtain ⟨hk, -⟩ := List.getElem?_eq_some_iff.mp h
  rw [getD_append_add, List.getD_append _ _ _ _ hk, List.getD_eq_getElem?_getD, h, Option.getD_some]

/-- A pixel of a valid sprite is 0 or 1, and so is what is read past its pixels. -/
theorem Entry.Valid.pix_bit {e : Entry} (he : e.Valid) (r x : Nat) : e.pix r x = 0 ∨ e.pix r x = 1 := by
  rw [Entry.pix, List.getD_eq_getElem?_getD]
  cases hp : e.pixels[r * (8 * e.w.toNat) + x]? with
  | none => exact .inl rfl
  | some p => exact he.pixelBits p (List.mem_of_getElem? hp)

/-- Unpacking a pixel of a packed record gives it back, if it is 0 or 1. -/
theorem unpackPixel_packRecord (before rest : List Byte) (id nxt : Nat) {e : Entry} {r x : Nat} (hr : r < 8 * e.h.toNat)
    (hx : x < 8 * e.w.toNat) (hbit : e.pix r x = 0 ∨ e.pix r x = 1) :
    unpackPixel (before ++ (packRecord id nxt e ++ rest)) before.length e.w.toNat r x = e.pix r x := by
  have hbyte := getD_packRecord before rest (packRecord_pixelByte id nxt e hr (c := x / 8) (by omega))
  have hlit := packByte_getLsbD e r (x / 8) (Nat.mod_lt x (by decide))
  rw [Nat.div_add_mod] at hlit
  rw [unpackPixel, Nat.add_assoc before.length, Nat.add_assoc before.length, hbyte, shiftRight_and_one, hlit]
  obtain hzero | hone := hbit
  · simp [hzero]
  · simp [hone]

/-- Unpacking a packed sprite gives it back. -/
theorem unpackRecord_packRecord (before rest : List Byte) (id nxt : Nat) {e : Entry} (he : e.Valid) :
    unpackRecord (before ++ (packRecord id nxt e ++ rest)) before.length e.w e.h = e := by
  have hpixels : (unpackRecord (before ++ (packRecord id nxt e ++ rest)) before.length e.w e.h).pixels = e.pixels := by
    have hcount : e.pixels.length = 8 * e.h.toNat * (8 * e.w.toNat) := he.pixelCount.trans (by ring)
    refine Eq.trans ?_ (flatMap_map_range_getD hcount)
    refine List.flatMap_congr fun r hr => List.map_congr_left fun x hx => ?_
    rw [List.mem_range] at hr hx
    exact unpackPixel_packRecord before rest id nxt hr hx (he.pix_bit r x)
  have hattrs : (unpackRecord (before ++ (packRecord id nxt e ++ rest)) before.length e.w e.h).attrs = e.attrs := by
    refine Eq.trans ?_ (flatMap_map_range_getD (he.attrCount.trans (Nat.mul_comm _ _)))
    refine List.flatMap_congr fun r hr => List.map_congr_left fun c hc => ?_
    rw [List.mem_range] at hr hc
    have hattr := getD_packRecord before rest (packRecord_attr id nxt e hr hc)
    rwa [← Nat.add_assoc, ← Nat.add_assoc, ← Nat.add_assoc] at hattr
  exact congrArg₂ (Entry.mk e.w e.h) hpixels hattrs

/-! ## Why the scan stops, from what is left (44_sprite R185) -/

/-- The stop tests look only at what is left. -/
theorem scanStop_append (before rest : List Byte) (count : Nat) :
    scanStop (before ++ rest) before.length count = scanStop rest 0 count := by
  have hhead : (before ++ rest).getD before.length 0 = rest.getD 0 0 := getD_append_add before rest 0
  simp only [scanStop, length_append_sub, getD_append_add, hhead, Nat.zero_add, Nat.sub_zero]

theorem scanStop_nil (count : Nat) : scanStop [] 0 count = some .exhausted := rfl

theorem scanStop_zero (rest : List Byte) (count : Nat) : scanStop (0 :: rest) 0 count = some .sentinel := rfl

theorem scanStop_of_short {x : Byte} {rest : List Byte} (hx : x ≠ 0) (h : (x :: rest).length < 5) (count : Nat) :
    scanStop (x :: rest) 0 count = some .short := by
  have hsome : ¬ (x :: rest).length - 0 = 0 := Nat.succ_ne_zero _
  rw [scanStop, if_neg hsome]
  exact (if_neg hx).trans (if_pos h)

/-- With a whole header left, the dimensions, the size and the count decide, in this order. -/
theorem scanStop_header {x : Byte} (hx : x ≠ 0) (n0 n1 w h : Byte) (more : List Byte) (count : Nat) :
    scanStop (x :: n0 :: n1 :: w :: h :: more) 0 count
      = if w = 0 ∨ h = 0 then some .zeroDim
        else if (x :: n0 :: n1 :: w :: h :: more).length < recordSize w.toNat h.toNat then some .overrun
        else if count = 255 then some .limit
        else none := by
  have hlength : ¬ (x :: n0 :: n1 :: w :: h :: more).length < 5 := Nat.not_lt_of_le (Nat.le_add_left 5 more.length)
  have hsome : ¬ (x :: n0 :: n1 :: w :: h :: more).length - 0 = 0 := Nat.succ_ne_zero _
  rw [scanStop, if_neg hsome]
  exact (if_neg hx).trans (if_neg hlength)

/-- After fewer than 255 records a packed sprite does not stop the scan. -/
theorem scanStop_packRecord (rest : List Byte) {id : Nat} (nxt : Nat) {e : Entry} {count : Nat} (hid : id % 256 ≠ 0)
    (he : e.Valid) (hcount : count < 255) : scanStop (packRecord id nxt e ++ rest) 0 count = none := by
  have hid' : BitVec.ofNat 8 id ≠ 0 := fun h => hid (by simpa using congrArg BitVec.toNat h)
  have hroom : ¬ (packRecord id nxt e ++ rest).length < recordSize e.w.toNat e.h.toNat := by
    rw [List.length_append, packRecord_length]
    exact Nat.not_lt_of_le (Nat.le_add_right _ _)
  rw [packRecord_eq] at hroom ⊢
  exact (scanStop_header hid' _ _ e.w e.h _ count).trans ((if_neg (not_or.mpr ⟨he.widthPos, he.heightPos⟩)).trans
    ((if_neg hroom).trans (if_neg hcount.ne)))

/-! ## The scan, without its fuel -/

/-- The scan from offset o with as much fuel as it can use; from offset 0 it is `scanPacked`. -/
def scanAt (t : List Byte) (o count : Nat) : Scan := scanFrom t (t.length - o + 1) o count

theorem scanFrom_of_fuel (t : List Byte) {fuel o : Nat} (count : Nat) (h : t.length - o < fuel) :
    scanFrom t fuel o count = scanAt t o count := by
  induction fuel, h using Nat.le_induction with
  | base => rfl
  | succ fuel h ih => rw [scanFrom_fuel t fuel o count h, ih]

theorem scanAt_of_stop {t : List Byte} {o count : Nat} {reason : StopReason} (h : scanStop t o count = some reason) :
    scanAt t o count = ⟨[], o, reason⟩ := by
  rw [scanAt, scanFrom, h]

/-- A scan that has found these sprites before. -/
def Scan.after (ents : List Entry) (scan : Scan) : Scan := { scan with ents := ents ++ scan.ents }

/-- Where nothing stops it, the scan finds the record there and goes on where that ends. -/
theorem scanAt_of_none {t : List Byte} {o count : Nat} (h : scanStop t o count = none) :
    scanAt t o count
      = (scanAt t (o + recordSize (t.getD (o + 3) 0).toNat (t.getD (o + 4) 0).toNat) (count + 1)).after
          [unpackRecord t o (t.getD (o + 3) 0) (t.getD (o + 4) 0)] := by
  obtain ⟨-, -, -, -, hinside⟩ := scanStop_none t o count h
  have hsize := recordSize_pos (t.getD (o + 3) 0).toNat (t.getD (o + 4) 0).toNat
  rw [scanAt, scanFrom, h, ← scanFrom_of_fuel (fuel := t.length - o) t (count + 1) (by omega)]
  rfl

/-- A packed sprite is found, and the scan goes on where its record ends. -/
theorem scanAt_record (before rest : List Byte) {id : Nat} (nxt : Nat) {e : Entry} {count : Nat} (hid : id % 256 ≠ 0)
    (he : e.Valid) (hcount : count < 255) :
    scanAt (before ++ (packRecord id nxt e ++ rest)) before.length count
      = (scanAt (before ++ (packRecord id nxt e ++ rest)) (before ++ packRecord id nxt e).length (count + 1)).after [e] := by
  have hstop := (scanStop_append before _ count).trans (scanStop_packRecord rest nxt hid he hcount)
  have hw := getD_packRecord before rest (id := id) (nxt := nxt) (e := e) (k := 3) (b := e.w) (by simp [packRecord_eq])
  have hh := getD_packRecord before rest (id := id) (nxt := nxt) (e := e) (k := 4) (b := e.h) (by simp [packRecord_eq])
  rw [scanAt_of_none hstop, hw, hh, unpackRecord_packRecord before rest id nxt he, List.length_append, packRecord_length,
    Entry.recordSize]

/-! ## Packed records one after another -/

theorem scanAt_records {t : List Byte} {recs : List (Nat × Nat × Entry)} (before rest : List Byte)
    (ht : t = before ++ (recs.flatMap recordBytes ++ rest)) (hrecs : ∀ r ∈ recs, r.1 % 256 ≠ 0 ∧ r.2.2.Valid) {count : Nat}
    (hcount : count + recs.length ≤ 255) :
    scanAt t before.length count
      = (scanAt t (before ++ recs.flatMap recordBytes).length (count + recs.length)).after (recs.map (fun r => r.2.2)) := by
  induction recs generalizing before count with
  | nil =>
    rw [List.flatMap_nil, List.append_nil]
    rfl
  | cons r recs ih =>
    obtain ⟨⟨hid, he⟩, hrecs⟩ := List.forall_mem_cons.mp hrecs
    rw [List.length_cons, Nat.add_comm recs.length, ← Nat.add_assoc] at hcount ⊢
    rw [List.flatMap_cons, List.append_assoc] at ht
    have hrecord : scanAt t before.length count = (scanAt t (before ++ recordBytes r).length (count + 1)).after [r.2.2] :=
      ht ▸ scanAt_record before (recs.flatMap recordBytes ++ rest) r.2.1 hid he (by omega)
    have htail := ih (before ++ recordBytes r) (ht.trans (List.append_assoc _ _ _).symm) hrecs hcount
    rw [hrecord, htail, List.append_assoc, List.flatMap_cons]
    rfl

/-- `scanPacked` of at most 255 packed sprites, when what follows them stops it. -/
theorem scanPacked_records {recs : List (Nat × Nat × Entry)} {tail : List Byte} {reason : StopReason}
    (hrecs : ∀ r ∈ recs, r.1 % 256 ≠ 0 ∧ r.2.2.Valid) (hcount : recs.length ≤ 255)
    (hstop : scanStop tail 0 recs.length = some reason) :
    scanPacked (recs.flatMap recordBytes ++ tail)
      = ⟨recs.map (fun r => r.2.2), (recs.flatMap recordBytes).length, reason⟩ := by
  have hscan : scanPacked (recs.flatMap recordBytes ++ tail) = _ :=
    scanAt_records [] tail rfl hrecs (count := 0) (by rwa [Nat.zero_add])
  rw [← scanStop_append (recs.flatMap recordBytes)] at hstop
  rw [hscan, Nat.zero_add, List.nil_append, List.nil_append, scanAt_of_stop hstop, Scan.after, List.append_nil]

/-- Settles O36: the scan runs over the records, and what follows them decides why it stops. -/
theorem packedScanStopsForTheFirstReason : Obligations.PackedScanStopsForTheFirstReason := by
  rintro recs _ _ tail hrecs hcount rfl rfl
  have hscan {reason : StopReason} (hstop : scanStop tail 0 recs.length = some reason) :=
    scanPacked_records hrecs hcount hstop
  refine ⟨?exhausted, ?sentinel, ?short, ?header⟩
  case exhausted =>
    rintro rfl
    exact hscan (scanStop_nil _)
  case sentinel =>
    intro hhead
    obtain ⟨rest, rfl⟩ := List.head?_eq_some_iff.mp hhead
    exact hscan (scanStop_zero _ _)
  case short =>
    intro x hhead hx hlength
    obtain ⟨rest, rfl⟩ := List.head?_eq_some_iff.mp hhead
    exact hscan (scanStop_of_short hx hlength _)
  case header =>
    rintro x n0 n1 w h more rfl hx
    have hheader := scanStop_header hx n0 n1 w h more recs.length
    refine ⟨fun hzero => ?zeroDim, fun hw hh hpast => ?overrun, fun hw hh hroom hfull => ?limit⟩
    case zeroDim => exact hscan (hheader.trans (if_pos hzero))
    all_goals rw [if_neg (not_or.mpr ⟨hw, hh⟩)] at hheader
    case overrun => exact hscan (hheader.trans (if_pos hpast))
    case limit =>
      rw [List.length_map] at hfull
      exact hscan (hheader.trans ((if_neg (Nat.not_lt_of_le hroom)).trans (if_pos hfull)))

/-- Settles O37: a chain is packed records with ids 1 to N, so that the scan finds its sprites and ends with it. -/
theorem unpackingInvertsPacking : Obligations.UnpackingInvertsPacking := by
  rintro n ents _ rest packed start hvalid hcount rfl hchain
  have hbound := n.isLt
  obtain ⟨recs, rfl, rfl, hids⟩ := chainFrom_records hchain
  rw [List.length_map] at hcount hids
  have hrecs : ∀ r ∈ recs, r.1 % 256 ≠ 0 ∧ r.2.2.Valid := fun r hr => by
    have ⟨hlow, hhigh⟩ := hids r hr
    exact ⟨by omega, hvalid _ (List.mem_map_of_mem hr)⟩
  have hscan := scanPacked_records hrecs (by omega) (scanStop_nil _)
  rw [List.append_nil] at hscan
  refine ⟨parseUsf_complete (fun e he => (hvalid e he).complete) (by rwa [List.length_map]), ?_⟩
  rw [hscan]
  refine ⟨rfl, rfl, ?_⟩
  rw [usfImage, List.length_map, hcount, BitVec.ofNat_toNat, BitVec.setWidth_eq]
  rfl

end Sys2Proof.Machine
end

section
/-! The commands SPR_UNPACK and SPR_PACK (44_sprite R187, R188): what each one answers for every state of its registers, and
the state it ends in. -/

namespace Sys2Proof.Machine

section
variable {s : State} {ents : List Entry} {out : List Byte}

/-! ## SPR_UNPACK (44_sprite R187) -/

/-- The results of SPR_UNPACK, from its scan. -/
def unpackEffect (scan : Scan) : Effect where
  out := some (usfImage scan.ents)
  res0 := some (word scan.ents.length)
  res1 := some (word scan.stop)
  res2 := some (word scan.reason.code)
  res3 := some (word (usfImage scan.ents).length)

/-- With IN and OUT checked, only the room in OUT is left to check. -/
theorem sprUnpack_of_ready (hready : s.InOutReady) :
    sprUnpack s = (checkOutput s (usfImage (scanPacked s.inAll).ents) >>= fun _ =>
      .ok (unpackEffect (scanPacked s.inAll))) := by
  rw [sprUnpack, checkInOut_ok s hready]
  rfl

theorem sprUnpack_of_overflow (hready : s.InOutReady) (hout : s.outLen.toNat < (usfImage (scanPacked s.inAll).ents).length) :
    sprUnpack s = .error (.outputOverflow (usfImage (scanPacked s.inAll).ents).length) := by
  rw [sprUnpack_of_ready hready, checkOutput_error s _ hout, bind_error]

theorem sprUnpack_of_room (hready : s.InOutReady) (hout : (usfImage (scanPacked s.inAll).ents).length ≤ s.outLen.toNat) :
    sprUnpack s = .ok (unpackEffect (scanPacked s.inAll)) := by
  rw [sprUnpack_of_ready hready, checkOutput_ok s _ hout, bind_ok]

/-! ## SPR_PACK (44_sprite R188) -/

theorem sprPack_of_bad_image {e : CmdError} (hready : s.InOutReady) (h : parseUsf s.inAll = .error e) :
    sprPack s = .error e := by
  rw [sprPack, checkInOut_ok s hready, h]
  rfl

theorem sprPack_of_high_start (hready : s.InOutReady) (h : parseUsf s.inAll = .ok ents) (hstart : 0xFFFF < s.arg0.toNat) :
    sprPack s = .error (.encodingError s.arg0.toNat) := by
  have hpast : checkStart s.argStart = .error (.encodingError s.arg0.toNat) := if_pos hstart
  rw [sprPack, checkInOut_ok s hready, h, bind_ok, bind_ok, hpast, bind_error]

/-- With the entries found and a start that fits, the chain and the room in OUT are left. -/
theorem sprPack_of_start (hready : s.InOutReady) (h : parseUsf s.inAll = .ok ents) (hstart : s.arg0.toNat ≤ 0xFFFF) :
    sprPack s = (chain ents s.arg0.toNat >>= fun out => checkOutput s out >>= fun _ => .ok {
      out := some out, res0 := some (word out.length), res1 := some (word ents.length), res2 := some s.arg0 }) := by
  have hfits : checkStart s.argStart = .ok () := if_neg (Nat.not_lt_of_le hstart)
  rw [sprPack, checkInOut_ok s hready, h, bind_ok, bind_ok, hfits, bind_ok, State.argStart, value_toNat]
  rfl

theorem sprPack_of_broken_chain {e : CmdError} (hready : s.InOutReady) (h : parseUsf s.inAll = .ok ents)
    (hstart : s.arg0.toNat ≤ 0xFFFF) (hchain : chain ents s.arg0.toNat = .error e) : sprPack s = .error e := by
  rw [sprPack_of_start hready h hstart, hchain, bind_error]

theorem sprPack_of_overflow (hready : s.InOutReady) (h : parseUsf s.inAll = .ok ents) (hstart : s.arg0.toNat ≤ 0xFFFF)
    (hchain : chain ents s.arg0.toNat = .ok out) (hout : s.outLen.toNat < out.length) :
    sprPack s = .error (.outputOverflow out.length) := by
  rw [sprPack_of_start hready h hstart, hchain, bind_ok, checkOutput_error s _ hout, bind_error]

theorem sprPack_of_room (hready : s.InOutReady) (h : parseUsf s.inAll = .ok ents) (hstart : s.arg0.toNat ≤ 0xFFFF)
    (hchain : chain ents s.arg0.toNat = .ok out) (hout : out.length ≤ s.outLen.toNat) : sprPack s = .ok {
      out := some out, res0 := some (word out.length), res1 := some (word ents.length), res2 := some s.arg0 } := by
  rw [sprPack_of_start hready h hstart, hchain, bind_ok, checkOutput_ok s _ hout, bind_ok]

end

/-! ## The statements -/

/-- Settles O38: the checks of IN and OUT, then the room in OUT for the image of the scanned sprites. -/
theorem sprUnpackWritesTheUsfImage : Obligations.SprUnpackWritesTheUsfImage := by
  refine ⟨rfl, ?_⟩
  rintro s scan _ reason hd hscan rfl hreason
  have hcode : reason = word scan.reason.code := by
    rw [hreason]
    cases scan.reason <;> rfl
  subst hscan hcode
  refine ⟨inOutChecked_of_first rfl, fun hready hout => ?overflow, fun hready hout => ?room⟩
  case overflow => exact exec_of_error .sprUnpack (sprUnpack_of_overflow hready hout)
  case room =>
    exact ⟨_, (exec_of_ok .sprUnpack hd (sprUnpack_of_room hready hout) :), s.wroteOut_committed _⟩

/-- Settles O39: the checks of IN and OUT, the parse, the start, the chain, and the room in OUT, each with its error. -/
theorem sprPackWritesTheChainedRecords : Obligations.SprPackWritesTheChainedRecords := by
  refine ⟨rfl, fun s hd => ⟨inOutChecked_of_first rfl, fun e hready hparse => ?badImage, fun ents hready hparse =>
    ⟨fun hstart => ?highStart, fun e hstart hchain => ?brokenChain, fun out hstart hchain hout => ?overflow,
      fun out hstart hchain hout => ?room⟩⟩⟩
  case badImage =>
    have hexec := exec_of_error .sprPack (sprPack_of_bad_image hready hparse)
    obtain ⟨o, rfl | rfl⟩ := parseUsf_error hparse
    · exact ⟨o, .inl ⟨rfl, hexec⟩⟩
    · exact ⟨o, .inr ⟨rfl, hexec⟩⟩
  case highStart => exact exec_of_error .sprPack (sprPack_of_high_start hready hparse hstart)
  case brokenChain =>
    have hexec := exec_of_error .sprPack (sprPack_of_broken_chain hready hparse hstart hchain)
    obtain ⟨k, -, -, -, rfl⟩ := chainFrom_error hchain
    exact ⟨_, rfl, hexec⟩
  case overflow => exact exec_of_error .sprPack (sprPack_of_overflow hready hparse hstart hchain hout)
  case room =>
    exact ⟨_, (exec_of_ok .sprPack hd (sprPack_of_room hready hparse hstart hchain hout) :), s.wroteOut_committed _⟩

end Sys2Proof.Machine
end

section
/-! The layout function (45_allocator R211, R214, R215): below END_ADDR every address of the chain fits 16 bits, so the chain
never fails and is as long as the layout says. -/

namespace Sys2Proof.Machine

section
variable {ents : List Entry}

/-! ## The layout function (45_allocator R211) -/

theorem computeLayout_of_fits (h : totalBytes ents ≤ 56575) :
    computeLayout ents = .ok (totalBytes ents, 56575 - totalBytes ents) := if_neg (Nat.not_lt_of_le h)

theorem computeLayout_of_oversized (h : 56575 < totalBytes ents) :
    computeLayout ents = .error (.capacityExceeded (totalBytes ents)) := if_pos h

/-- A layout ends at END_ADDR. -/
theorem computeLayout_eq_ok {total start : Nat} (h : computeLayout ents = .ok (total, start)) :
    total = totalBytes ents ∧ start + total = 56575 := by
  obtain hpast | hfits := Nat.lt_or_ge 56575 (totalBytes ents)
  · rw [computeLayout_of_oversized hpast] at h
    cases h
  · rw [computeLayout_of_fits hfits] at h
    cases h
    exact ⟨rfl, Nat.sub_add_cancel hfits⟩

theorem computeLayout_eq_error {e : CmdError} (h : computeLayout ents = .error e) :
    e = .capacityExceeded (totalBytes ents) := by
  obtain hpast | hfits := Nat.lt_or_ge 56575 (totalBytes ents)
  · rw [computeLayout_of_oversized hpast] at h
    cases h
    rfl
  · rw [computeLayout_of_fits hfits] at h
    cases h

/-! ## The chain of a layout (45_allocator R214, R215) -/

/-- No record starts after the end of the last one. -/
theorem recordAddress_le_end (start : Nat) (ents : List Entry) (k : Nat) :
    recordAddress start ents k ≤ start + totalBytes ents :=
  Nat.add_le_add_left (((ents.take_sublist k).map Entry.recordSize).sum_le_sum fun _ _ => Nat.zero_le _) start

/-- A chain that ends at a 16-bit address never fails: each next address is at most that end. -/
theorem chain_of_end_fits {start : Nat} (h : start + totalBytes ents ≤ 0xFFFF) :
    ∃ data, chain ents start = .ok data ∧ data.length = totalBytes ents := by
  cases hchain : chain ents start with
  | ok data => exact ⟨data, rfl, chainFrom_length ents 1 start data hchain⟩
  | error e =>
    obtain ⟨k, -, hpast, -⟩ := chainFrom_error hchain
    have hend := recordAddress_le_end start ents (k + 1)
    omega

theorem chain_of_layout {total start : Nat} (h : computeLayout ents = .ok (total, start)) :
    ∃ data, chain ents start = .ok data ∧ data.length = total := by
  obtain ⟨rfl, hend⟩ := computeLayout_eq_ok h
  exact chain_of_end_fits (hend.trans_le (by decide))

end

/-! ## A parse that fails, as a command reports it (44_sprite R184, 60_exceptions R231) -/

theorem exec_of_bad_image {i : Instr} {s : State} {t : List Byte} {e : CmdError} (hparse : parseUsf t = .error e)
    (hresult : commandResult i s = .error e) :
    ∃ o, (e = .outOfBounds o ∧ exec i s = .next (s.aborted 1 o))
      ∨ (e = .invalidRecord o ∧ exec i s = .next (s.aborted 10 o)) := by
  have hexec := exec_of_error i hresult
  obtain ⟨o, rfl | rfl⟩ := parseUsf_error hparse
  · exact ⟨o, .inl ⟨rfl, hexec⟩⟩
  · exact ⟨o, .inr ⟨rfl, hexec⟩⟩

end Sys2Proof.Machine
end

section
/-! The allocator commands (45_allocator R212, R213, R215): what LAYOUT and EXPORT answer for every state of their registers,
and the state each one ends in. -/

namespace Sys2Proof.Machine

section
variable {s : State} {ents : List Entry} {data : List Byte}

/-! ## LAYOUT (45_allocator R212) -/

theorem layoutCmd_of_bad_image {e : CmdError} (hin : s.Fits .inp) (h : parseUsf s.inAll = .error e) :
    layoutCmd s = .error e := by
  rw [layoutCmd, checkRegion_ok s .inp hin, h]
  rfl

theorem layoutCmd_of_oversized (hin : s.Fits .inp) (h : parseUsf s.inAll = .ok ents) (hpast : 56575 < totalBytes ents) :
    layoutCmd s = .error (.capacityExceeded (totalBytes ents)) := by
  rw [layoutCmd, checkRegion_ok s .inp hin, h, bind_ok, bind_ok, computeLayout_of_oversized hpast, bind_error]

theorem layoutCmd_of_fits (hin : s.Fits .inp) (h : parseUsf s.inAll = .ok ents) (hfits : totalBytes ents ≤ 56575) :
    layoutCmd s = .ok {
      res0 := some (word (totalBytes ents))
      res1 := some (word (56575 - totalBytes ents))
      res2 := some (word ents.length) } := by
  rw [layoutCmd, checkRegion_ok s .inp hin, h, bind_ok, bind_ok, computeLayout_of_fits hfits]
  rfl

/-! ## The tape image of EXPORT (45_allocator R213) -/

/-- A u16 field, low byte first. -/
theorem le16_eq_low_high (v : Nat) : le16 v = [BitVec.ofNat 8 (v % 256), BitVec.ofNat 8 (v / 256)] := by
  rw [le16_eq_digits, ofNat_mod_256 (v / 256)]

/-- The header of a tape of `total` bytes of records, named by the first ten bytes of AUX. -/
def State.tapeHeader (s : State) (total : Nat) : List Byte :=
  headerPayload 3 (s.auxBytes 0 (min s.auxLen.toNat 10)) total (56575 - total) 32768

/-- The header block and the data block of a chain. -/
def State.tapeImage (s : State) (data : List Byte) : List Byte :=
  frame 0 (s.tapeHeader data.length) ++ frame 255 data

theorem State.tapeHeader_length (s : State) (total : Nat) : (s.tapeHeader total).length = 17 := headerPayload_length _ _ _ _ _

theorem State.tapeImage_length (s : State) (data : List Byte) : (s.tapeImage data).length = data.length + 25 := by
  rw [State.tapeImage, List.length_append, frame_length, frame_length, State.tapeHeader_length]
  omega

/-- The bytes of the header: a name of fewer than ten bytes is padded with spaces. -/
theorem State.tapeHeader_eq (s : State) (total : Nat) : s.tapeHeader total
    = [3] ++ s.auxBytes 0 (min s.auxLen.toNat 10) ++ List.replicate (10 - s.auxLen.toNat) 0x20
      ++ [BitVec.ofNat 8 (total % 256), BitVec.ofNat 8 (total / 256),
        BitVec.ofNat 8 ((56575 - total) % 256), BitVec.ofNat 8 ((56575 - total) / 256), 0x00, 0x80] := by
  have hlength : (s.auxBytes 0 (min s.auxLen.toNat 10)).length = min s.auxLen.toNat 10 := s.auxBytes_length _ _
  have hpad : 10 - min s.auxLen.toNat 10 = 10 - s.auxLen.toNat := by omega
  rw [State.tapeHeader, headerPayload, nameField_of_short (hlength.trans_le (Nat.min_le_right _ _)), hlength, hpad,
    le16_eq_low_high, le16_eq_low_high, le16_eq_low_high]
  simp

/-- Both blocks are stored blocks with the right checksums, because the data fit their length field. -/
theorem State.tapeImage_eq (s : State) (h : data.length ≤ 65534) :
    s.tapeImage data = [18, 0, 0] ++ s.tapeHeader data.length ++ [xorsum 0 (s.tapeHeader data.length)]
      ++ [BitVec.ofNat 8 ((data.length + 1) % 256), BitVec.ofNat 8 ((data.length + 1) / 256), 255] ++ data
      ++ [xorsum 255 data] := by
  have hheader := s.tapeHeader_length data.length
  rw [State.tapeImage, frame_eq_storedBlock (hheader.trans_le (by decide)), frame_eq_storedBlock h, storedBlock, storedBlock,
    hheader]
  simp only [List.append_assoc]
  rfl

/-! ## EXPORT (45_allocator R213) -/

/-- What EXPORT reports of a chain of the entries. -/
def exportEffect (s : State) (ents : List Entry) (data : List Byte) : Effect where
  out := some (s.tapeImage data)
  res0 := some (word (data.length + 25))
  res1 := some (word (56575 - data.length))
  res2 := some (word data.length)
  res3 := some (word ents.length)

theorem exportCmd_of_bad_image {e : CmdError} (hready : s.InAuxOutReady) (h : parseUsf s.inAll = .error e) :
    exportCmd s = .error e := by
  rw [exportCmd, checkInAuxOut_ok s hready, h]
  rfl

theorem exportCmd_of_oversized (hready : s.InAuxOutReady) (h : parseUsf s.inAll = .ok ents)
    (hpast : 56575 < totalBytes ents) : exportCmd s = .error (.capacityExceeded (totalBytes ents)) := by
  rw [exportCmd, checkInAuxOut_ok s hready, h, bind_ok, bind_ok, computeLayout_of_oversized hpast, bind_error]

/-- With a layout, the chain is made, and only the room in OUT is left to check. -/
theorem exportCmd_of_fits (hready : s.InAuxOutReady) (h : parseUsf s.inAll = .ok ents) (hfits : totalBytes ents ≤ 56575) :
    ∃ data, chain ents (56575 - totalBytes ents) = .ok data ∧ data.length = totalBytes ents
      ∧ exportCmd s = (checkOutput s (s.tapeImage data) >>= fun _ => .ok (exportEffect s ents data)) := by
  have hlayout := computeLayout_of_fits hfits
  obtain ⟨data, hchain, hlength⟩ := chain_of_layout hlayout
  refine ⟨data, hchain, hlength, ?_⟩
  rw [← hlength] at hlayout hchain
  rw [exportCmd, checkInAuxOut_ok s hready, h, bind_ok, bind_ok, hlayout, bind_ok, hchain]
  rfl

theorem exportCmd_of_overflow (hready : s.InAuxOutReady) (h : parseUsf s.inAll = .ok ents) (hfits : totalBytes ents ≤ 56575)
    (hout : s.outLen.toNat < totalBytes ents + 25) :
    exportCmd s = .error (.outputOverflow (totalBytes ents + 25)) := by
  obtain ⟨data, -, hlength, hresult⟩ := exportCmd_of_fits hready h hfits
  have himage := s.tapeImage_length data
  rw [hlength] at himage
  rw [hresult, checkOutput_error s _ (himage.symm ▸ hout), bind_error, himage]

theorem exportCmd_of_room (hready : s.InAuxOutReady) (h : parseUsf s.inAll = .ok ents) (hfits : totalBytes ents ≤ 56575)
    (hout : totalBytes ents + 25 ≤ s.outLen.toNat) :
    ∃ data, chain ents (56575 - totalBytes ents) = .ok data ∧ data.length = totalBytes ents
      ∧ exportCmd s = .ok (exportEffect s ents data) := by
  obtain ⟨data, hchain, hlength, hresult⟩ := exportCmd_of_fits hready h hfits
  rw [← hlength, ← s.tapeImage_length data] at hout
  exact ⟨data, hchain, hlength, by rw [hresult, checkOutput_ok s _ hout, bind_ok]⟩

/-! ## The errors of EXPORT (45_allocator R215) -/

theorem checkInAuxOut_eq_error {e : CmdError} (h : checkInAuxOut s = .error e) :
    ∃ r, e = .bufferRange r ∨ e = .regionOverlap r := by
  obtain ⟨hok, -⟩ | ⟨herr, -⟩ | ⟨herr, -⟩ | ⟨herr, -⟩ | ⟨herr, -⟩ | ⟨herr, -⟩ := checkInAuxOut_cases s
  · cases hok.symm.trans h
  all_goals
    cases herr.symm.trans h
    simp

theorem checkOutput_eq_error {out : List Byte} {e : CmdError} (h : checkOutput s out = .error e) :
    e = .outputOverflow out.length := by
  rw [checkOutput] at h
  split at h
  · cases h
    rfl
  · cases h

theorem CmdError.eq_encodingError_of_code {e : CmdError} (h : e.code = 3) : ∃ n, e = .encodingError n := by
  cases e with
  | encodingError n => exact ⟨n, rfl⟩
  | _ => simp [CmdError.code] at h

/-- Each step of EXPORT fails with an error of its own, or, as the chain, not at all. -/
theorem exportCmd_ne_encodingError (s : State) (n : Nat) : exportCmd s ≠ .error (.encodingError n) := by
  intro h
  obtain hchecks | ⟨_, -, h⟩ := bind_eq_error h
  · obtain ⟨_, herr | herr⟩ := checkInAuxOut_eq_error hchecks <;> cases herr
  obtain hparse | ⟨ents, -, h⟩ := bind_eq_error h
  · obtain ⟨_, herr | herr⟩ := parseUsf_error hparse <;> cases herr
  obtain hlayout | ⟨r, hlayout, h⟩ := bind_eq_error h
  · cases computeLayout_eq_error hlayout
  obtain hchain | ⟨_, -, h⟩ := bind_eq_error h
  · obtain ⟨data, hok, -⟩ := chain_of_layout hlayout
    cases hok.symm.trans hchain
  obtain hroom | ⟨_, -, h⟩ := bind_eq_error h
  · cases checkOutput_eq_error hroom
  · cases h

end

/-! ## The statements -/

/-- Settles O42: the check of IN, the parse, then the layout. -/
theorem layoutComputesTotalAndStart : Obligations.LayoutComputesTotalAndStart := by
  refine ⟨rfl, fun s hd => ⟨exec_of_in_unfit rfl, fun e hin hparse => ?badImage, fun ents total hin hparse htotal => ?parsed⟩⟩
  case badImage => exact exec_of_bad_image hparse (layoutCmd_of_bad_image hin hparse)
  case parsed =>
    obtain rfl : total = totalBytes ents := htotal
    exact ⟨fun hpast => exec_of_error .layout (layoutCmd_of_oversized hin hparse hpast),
      fun hfits => (exec_of_ok .layout hd (layoutCmd_of_fits hin hparse hfits) :)⟩

/-- Settles O43: the chain of a layout never fails, and an EXPORT that completes keeps ERRCODE, while one that aborts has an
error that is not EncodingError. -/
theorem exportNeverRaisesEncodingError : Obligations.ExportNeverRaisesEncodingError := by
  refine ⟨fun ents total start hlayout => ?layout, fun s t hexec hcode => ?errcode⟩
  case layout =>
    obtain ⟨data, hchain, hlength⟩ := chain_of_layout hlayout
    obtain ⟨-, hend⟩ := computeLayout_eq_ok hlayout
    exact ⟨data, hchain, hlength, by omega⟩
  case errcode =>
    obtain ⟨f, -, rfl⟩ | ⟨e, herr, rfl⟩ := exec_cases .exportTape s t hexec
    · rwa [State.apply_errcode]
    · rw [State.abort_errcode]
      intro hthree
      obtain ⟨n, rfl⟩ := CmdError.eq_encodingError_of_code hthree
      exact exportCmd_ne_encodingError s n herr

/-- Settles O44: the checks of IN, AUX and OUT, the parse, the layout, then the room in OUT; the output is the header block and
the block of the layout's chain. -/
theorem exportWritesTheTapeImage : Obligations.ExportWritesTheTapeImage := by
  refine ⟨rfl, fun s hd => ⟨inAuxOutChecked_of_first rfl, fun e hready hparse => ?badImage,
    fun ents total hready hparse htotal => ?parsed⟩⟩
  case badImage => exact exec_of_bad_image hparse (exportCmd_of_bad_image hready hparse)
  case parsed =>
    obtain rfl : total = totalBytes ents := htotal
    refine ⟨fun hpast => ?oversized, fun hfits hout => ?overflow, fun hfits hout => ?room⟩
    case oversized => exact exec_of_error .exportTape (exportCmd_of_oversized hready hparse hpast)
    case overflow => exact exec_of_error .exportTape (exportCmd_of_overflow hready hparse hfits hout)
    case room =>
      obtain ⟨data, hchain, hlength, hresult⟩ := exportCmd_of_room hready hparse hfits hout
      have hwrote := s.wroteOut_committed (s.tapeImage data)
      rw [← hlength] at hfits hchain ⊢
      exact ⟨_, data, s.tapeHeader data.length, (exec_of_ok .exportTape hd hresult :), hchain, s.tapeHeader_eq _,
        s.tapeImage_eq (hfits.trans (by decide)) ▸ hwrote⟩

end Sys2Proof.Machine
end

section
/-! Every command ends (60_exceptions R234 to R237), every step has a next state, and who moves on an idle machine. -/

namespace Sys2Proof.Machine

/-! ## The end of a command (60_exceptions R235, R236) -/

/-- A success, scrambled or not, sets DONE and leaves the error state as it was. -/
theorem State.finish_status (s : State) (f : Effect) : (s.finish f).done = true ∧ (s.finish f).err = s.err
    ∧ (s.finish f).errcode = s.errcode ∧ (s.finish f).errinfo = s.errinfo := ⟨rfl, rfl, rfl, rfl⟩

/-- Settles O8: a command settles its result, which is a success or an error with one of the ten codes. -/
theorem everyCommandCompletesOrAbortsPrecisely : Obligations.EveryCommandCompletesOrAbortsPrecisely := by
  intro i s
  refine ⟨_, exec_eq_settle i s, exec_pending (exec_eq_settle i s), ?_⟩
  cases commandResult i s with
  | ok f => exact .inl (s.finish_status f)
  | error e =>
    obtain ⟨hlow, hhigh⟩ := e.code_range
    exact .inr ⟨e.code, e.info, hlow, hhigh, s.abort_eq_aborted e⟩

/-! ## The turns of the engine (60_exceptions R234, R248, R249) -/

/-- The engine runs a pending word that decodes. -/
theorem engineStep_command {s : State} {w : Word} {i : Instr} (hpending : s.pending = some w)
    (hdecode : decode w = .ok i) : engineStep s = exec i s := by
  simp only [engineStep, hpending, hdecode]

theorem engineStep_idle {s : State} (hidle : s.pending = none) : engineStep s = .next s := by
  simp only [engineStep, hidle]

/-- Settles O6: the step is the engine's, on both schedules, and the engine runs the decoded command. -/
theorem stepRunsTheDecodedCommand : Obligations.StepRunsTheDecodedCommand := by
  intro s w i hpending hdecode _
  exact ⟨fun hturns => (step_unscheduled_pending hturns hpending).trans (engineStep_command hpending hdecode),
    fun rest hturns => (step_engine hturns).trans (engineStep_command hpending hdecode)⟩

/-- The engine's turn ends, whether idle, with a command, or with a word that is no command. -/
theorem engineStep_answers (s : State) : ∃ t, engineStep s = .next t := by
  obtain ⟨-, hidle⟩ | ⟨-, i, hrun⟩ | ⟨-, w, hillegal⟩ := engineStep_cases s
  · exact ⟨s, hidle⟩
  · exact ⟨_, hrun.trans (exec_eq_settle i s)⟩
  · exact ⟨_, hillegal⟩

/-- Settles O7: a step is one agent's turn, and each agent's turn answers a next state. -/
theorem everyStepAnswersANextState : Obligations.EveryStepAnswersANextState := by
  intro s
  obtain ⟨turn, rest, hstep⟩ := step_eq_takeTurn s
  rw [hstep]
  cases turn with
  | host => exact ⟨_, rfl⟩
  | engine => exact engineStep_answers _
  | reset => exact ⟨_, rfl⟩

end Sys2Proof.Machine
end

section
/-! The outcome of a command on the host's side (60_exceptions R233, R239, R248): only an accepted CMD write or a reset takes it
away. -/

namespace Sys2Proof.Machine

/-! ## CMD writes (60_exceptions R233) -/

theorem State.hostRegWrite_busy (s : State) (offset size : Nat) (v : Word) (hbusy : s.busy = true) :
    s.hostRegWrite offset size v = s := if_pos hbusy

theorem State.busy_of_pending {s : State} {w : Word} (h : s.pending = some w) : s.busy = true := by
  rw [State.busy, h, Option.isSome_some]

/-- Settles O45: the step is the register write with the host moved on; that write is acceptance while idle, and nothing while
busy. -/
theorem commandWritesAreAcceptedOnlyWhileIdle : Obligations.CommandWritesAreAcceptedOnlyWhileIdle := by
  intro s rest w hturns hop
  have hstep := step_host_op s rest _ hturns hop
  rw [State.hostPerform, State.hostRegWrite_withTurns] at hstep
  refine ⟨fun hidle => ?accepted, fun v hpending => ?ignored⟩
  case accepted =>
    rw [s.hostRegWrite_idle (r := .cmd) w (s.busy_eq_false_iff.mpr hidle) rfl] at hstep
    exact ⟨_, hstep, rfl, rfl⟩
  case ignored =>
    rw [s.hostRegWrite_busy _ _ w (State.busy_of_pending hpending)] at hstep
    exact hstep

/-! ## Steps of an idle machine (60_exceptions R239, R248) -/

/-- A step of an idle machine that is no reset is the host's move, or the turn of an idle engine. -/
theorem step_idle_cases {s : State} (hidle : s.pending = none) (hreset : s.turns.head? ≠ some .reset) :
    ∃ rest, step s = .next (State.hostStep { s with turns := rest }) ∨ step s = .next { s with turns := rest } := by
  cases hturns : s.turns with
  | nil =>
    have hdefault : s.defaultTurn = .host := by rw [State.defaultTurn, s.busy_eq_false_iff.mpr hidle]; rfl
    refine ⟨s.turns, .inl ?_⟩
    rw [step, nextTurn, hturns]
    simp only [hdefault, ← hturns]
    rfl
  | cons turn rest =>
    refine ⟨rest, ?_⟩
    cases turn with
    | host => exact .inl (step_host s rest hturns)
    | engine => exact .inr ((step_engine hturns).trans (engineStep_idle hidle))
    | reset => exact absurd (by rw [hturns]; rfl) hreset

/-- What a command leaves for the host to read in registers: DONE, ERR, ERRCODE, ERRINFO, CUR and RES0 to RES5. -/
def State.outcome (s : State) : (Bool × Bool × Byte × Word) × Word × Word × Word × Word × Word × Word × Word :=
  ((s.done, s.err, s.errcode, s.errinfo), s.cur, s.res0, s.res1, s.res2, s.res3, s.res4, s.res5)

/-- Two states have the same outcome when they agree field by field. -/
theorem State.outcome_eq_iff (s t : State) : t.outcome = s.outcome ↔
    t.done = s.done ∧ t.err = s.err ∧ t.errcode = s.errcode ∧ t.errinfo = s.errinfo ∧ t.cur = s.cur
      ∧ t.res0 = s.res0 ∧ t.res1 = s.res1 ∧ t.res2 = s.res2 ∧ t.res3 = s.res3 ∧ t.res4 = s.res4 ∧ t.res5 = s.res5 := by
  simp only [State.outcome, Prod.mk.injEq, and_assoc]

/-- A register write keeps the outcome, or it is an accepted command. -/
theorem State.hostRegWrite_outcome (s : State) (offset size : Nat) (v : Word)
    (hidle : (s.hostRegWrite offset size v).pending = none) : (s.hostRegWrite offset size v).outcome = s.outcome := by
  obtain ⟨hsame, -⟩ | ⟨r, -, -, hwrite⟩ := s.hostRegWrite_cases offset size v
  · rw [hsame]
  · rw [hwrite] at hidle ⊢
    cases r with
    | cmd => cases hidle
    | _ => rfl

theorem State.hostMemWrite_outcome (s : State) (a : Nat) (b : Byte) : (s.hostMemWrite a b).outcome = s.outcome := by
  by_cases ha : a < s.memSize
  · rw [s.hostMemWrite_inside b ha]
    rfl
  · rw [s.hostMemWrite_beyond b (Nat.le_of_not_lt ha)]

/-- A host op that accepts no command keeps the outcome. -/
theorem State.hostPerform_outcome (s : State) (op : HostOp) (hidle : (s.hostPerform op).pending = none) :
    (s.hostPerform op).outcome = s.outcome := by
  cases op with
  | regWrite offset size v => exact s.hostRegWrite_outcome offset size v hidle
  | memWrite a b => exact s.hostMemWrite_outcome a b
  | regRead offset size => rfl
  | memRead a => rfl
  | branch onZero offset mask target => rfl

theorem State.hostStep_outcome (s : State) (hidle : s.hostStep.pending = none) : s.hostStep.outcome = s.outcome := by
  cases hop : s.host.prog[s.host.pc]? with
  | none => rw [s.hostStep_at_end hop]
  | some op =>
    rw [s.hostStep_of_op op hop] at hidle ⊢
    exact s.hostPerform_outcome op hidle

/-- Settles O55: such a step is a host op that accepts no command, or nothing happens. -/
theorem theOutcomeStaysUntilTheNextCommand : Obligations.TheOutcomeStaysUntilTheNextCommand := by
  intro s t hidle hreset hstep htidle
  rw [← State.outcome_eq_iff]
  obtain ⟨rest, hhost | hnothing⟩ := step_idle_cases hidle hreset
  · rw [hhost] at hstep
    cases hstep
    exact State.hostStep_outcome _ htidle
  · rw [hnothing] at hstep
    cases hstep
    rfl

end Sys2Proof.Machine
end

section
/-! The same command again after an abort (60_exceptions R239): the next accepted word changes no register a command reads, and
written input bytes read the same, so the command answers the same result. -/

namespace Sys2Proof.Machine

/-- The state in which the word w is accepted after an abort with the error e. -/
def State.afterAbort (s : State) (e : CmdError) (w : Word) : State := (s.abort e).accept w

/-- Every byte of a region has been written since reset. -/
def State.Written (s : State) (r : RegionId) : Prop :=
  ∀ a, s.base r ≤ a → a < s.base r + s.len r → (s.mem.read? a).isSome = true

section
variable (s : State) (e : CmdError) (w : Word)

@[simp] theorem State.afterAbort_base (r : RegionId) : (s.afterAbort e w).base r = s.base r := by cases r <;> rfl
@[simp] theorem State.afterAbort_len (r : RegionId) : (s.afterAbort e w).len r = s.len r := by cases r <;> rfl
@[simp] theorem State.afterAbort_cur : (s.afterAbort e w).cur = s.cur := rfl
@[simp] theorem State.afterAbort_avail : (s.afterAbort e w).avail = s.avail := rfl
@[simp] theorem State.afterAbort_argCount : (s.afterAbort e w).argCount = s.argCount := rfl

@[simp] theorem checkInOut_afterAbort : checkInOut (s.afterAbort e w) = checkInOut s := rfl
@[simp] theorem checkRegion_afterAbort (r : RegionId) : checkRegion (s.afterAbort e w) r = checkRegion s r := by
  cases r <;> rfl
@[simp] theorem checkOutput_afterAbort (out : List Byte) : checkOutput (s.afterAbort e w) out = checkOutput s out := rfl

end

/-! ## The reads of a written region -/

section
variable {s : State} {e : CmdError} {w : Word} (hd : s.disturbed = false)
include hd

theorem State.look_afterAbort {a : Nat} (h : (s.mem.read? a).isSome = true) : (s.afterAbort e w).look a = s.look a := by
  obtain ⟨b, hb⟩ := Option.isSome_iff_exists.mp h
  rw [s.look_written a b hd hb, State.look_written (s.afterAbort e w) a b rfl hb]

theorem State.lookBytes_afterAbort {r : RegionId} (h : s.Written r) {a n : Nat} (hn : n ≤ s.len r - a) :
    (s.afterAbort e w).lookBytes (s.base r + a) n = s.lookBytes (s.base r + a) n :=
  State.lookBytes_congr _ _ _ _ fun x hlow hhigh => State.look_afterAbort hd (h x (by omega) (by omega))

theorem State.inByte_afterAbort (h : s.Written .inp) {k : Nat} (hk : k < s.len .inp) :
    (s.afterAbort e w).inByte k = s.inByte k :=
  State.look_afterAbort hd (h (s.base .inp + k) (by omega) (by omega))

theorem State.inBytes_afterAbort (h : s.Written .inp) {a n : Nat} (hn : n ≤ s.len .inp - a) :
    (s.afterAbort e w).inBytes a n = s.inBytes a n :=
  State.lookBytes_afterAbort hd h hn

theorem State.auxBytes_afterAbort (h : s.Written .aux) {a n : Nat} (hn : n ≤ s.len .aux - a) :
    (s.afterAbort e w).auxBytes a n = s.auxBytes a n :=
  State.lookBytes_afterAbort hd h hn

theorem State.inAll_afterAbort (h : s.Written .inp) : (s.afterAbort e w).inAll = s.inAll :=
  State.inBytes_afterAbort hd h le_rfl

theorem State.auxAll_afterAbort (h : s.Written .aux) : (s.afterAbort e w).auxAll = s.auxAll :=
  State.auxBytes_afterAbort hd h le_rfl

/-! ## The result of a command -/

theorem curReadU8_afterAbort (h : s.Written .inp) : curReadU8 (s.afterAbort e w) = curReadU8 s := by
  simp only [curReadU8, checkRegion_afterAbort, State.afterAbort_cur, State.afterAbort_len]
  by_cases hcur : s.cur.toNat ≥ s.len .inp
  · simp only [hcur, if_true]
  · simp only [hcur, if_false, State.inByte_afterAbort hd h (Nat.lt_of_not_le hcur)]

theorem curReadU16le_afterAbort (h : s.Written .inp) : curReadU16le (s.afterAbort e w) = curReadU16le s := by
  simp only [curReadU16le, checkRegion_afterAbort, State.afterAbort_cur, State.afterAbort_avail]
  by_cases havail : s.avail < 2
  · simp only [havail, if_true]
  · have hlast : s.cur.toNat + 1 < s.len .inp := by
      rw [State.avail] at havail
      omega
    simp only [havail, if_false, State.inByte_afterAbort hd h hlast,
      State.inByte_afterAbort hd h (Nat.lt_of_succ_lt hlast)]

theorem curReadBytes_afterAbort (h : s.Written .inp) : curReadBytes (s.afterAbort e w) = curReadBytes s := by
  simp only [curReadBytes, checkInOut_afterAbort, checkOutput_afterAbort, State.afterAbort_cur, State.afterAbort_avail,
    State.afterAbort_argCount]
  by_cases havail : s.avail < s.argCount
  · simp only [havail, if_true]
  · simp only [havail, if_false, State.inBytes_afterAbort hd h (Nat.le_of_not_lt havail)]

/-- HDR_DECODE refuses an IN of another length than 17 before it reads a byte. -/
theorem hdrDecode_afterAbort (h : s.Written .inp) : hdrDecode (s.afterAbort e w) = hdrDecode s := by
  simp only [hdrDecode, checkInOut_afterAbort, checkOutput_afterAbort, State.afterAbort_len]
  by_cases hlen : s.len .inp = 17
  · have hbyte (k : Nat) (hk : k < 17) : (s.afterAbort e w).inByte k = s.inByte k :=
      State.inByte_afterAbort hd h (hlen ▸ hk)
    rw [State.inBytes_afterAbort hd h (hlen ▸ (by decide : Config.nameLen ≤ 17 - 1))]
    simp only [hbyte, Nat.reduceLT]
  · have hrefused : s.len .inp ≠ Config.headerPayloadLen := hlen
    simp only [ne_eq, hrefused, not_false_eq_true, if_true]

theorem hdrEncode_afterAbort (h : s.Written .inp) : hdrEncode (s.afterAbort e w) = hdrEncode s := by
  have hname : (s.afterAbort e w).inBytes 0 (min (s.len .inp) Config.nameLen)
      = s.inBytes 0 (min (s.len .inp) Config.nameLen) := State.inBytes_afterAbort hd h (Nat.min_le_left _ _)
  rw [hdrEncode, State.afterAbort_len, hname]
  rfl

theorem exportCmd_afterAbort (hin : s.Written .inp) (haux : s.Written .aux) :
    exportCmd (s.afterAbort e w) = exportCmd s := by
  have hname : (s.afterAbort e w).auxBytes 0 (min (s.len .aux) Config.nameLen)
      = s.auxBytes 0 (min (s.len .aux) Config.nameLen) := State.auxBytes_afterAbort hd haux (Nat.min_le_left _ _)
  rw [exportCmd, State.inAll_afterAbort hd hin, State.afterAbort_len, hname]
  rfl

/-- A command whose input regions are written answers the same result when it runs again after an abort. -/
theorem commandResult_afterAbort (i : Instr) (h : ∀ r, i.uses r = true → r ≠ .out → s.Written r) :
    commandResult i (s.afterAbort e w) = commandResult i s := by
  cases i with
  | curOpen | curAtEnd | attrUnpack | attrPack => rfl
  | curReadU8 => exact curReadU8_afterAbort hd (h .inp rfl nofun)
  | curReadU16le => exact curReadU16le_afterAbort hd (h .inp rfl nofun)
  | curReadBytes => exact curReadBytes_afterAbort hd (h .inp rfl nofun)
  | hdrDecode => exact hdrDecode_afterAbort hd (h .inp rfl nofun)
  | blkDecode _ | blkEncode _ | xorCsum _ | tapDecode _ | sprUnpack | sprPack | layout =>
    simp only [commandResult, blkDecode, blkEncode, xorCsum, tapDecode, sprUnpack, sprPack, layoutCmd,
      State.inAll_afterAbort hd (h .inp rfl nofun)]
    rfl
  | tapEncode =>
    simp only [commandResult, tapEncode, State.inAll_afterAbort hd (h .inp rfl nofun),
      State.auxAll_afterAbort hd (h .aux rfl nofun)]
    rfl
  | hdrEncode => exact hdrEncode_afterAbort hd (h .inp rfl nofun)
  | exportTape => exact exportCmd_afterAbort hd (h .inp rfl nofun) (h .aux rfl nofun)

end

/-- Settles O56: ERR was clear, so the command ended in an abort, and the second run answers the same error. -/
theorem theSameCommandGivesTheSameErrorAgain : Obligations.TheSameCommandGivesTheSameErrorAgain := by
  intro i s t w hd hclear hwritten hexec herr
  obtain ⟨f, -, rfl⟩ | ⟨e, herror, rfl⟩ := exec_cases i s t hexec
  · rw [State.apply_err, hclear] at herr
    cases herr
  · have hagain : commandResult i (s.afterAbort e w) = .error e := by
      rw [commandResult_afterAbort hd i fun r huses hne a => hwritten r a huses hne, herror]
    exact ⟨_, exec_of_error i hagain, rfl, rfl, rfl⟩

end Sys2Proof.Machine
end

section
/-! Hazards of a running command (70_reset R265 to R267, 93 U5, log 7): what the host writes while BUSY = 1, and what a command
that the host has disturbed leaves behind. -/

namespace Sys2Proof.Machine

/-! ## Register writes while BUSY = 1 (70_reset R265, R266) -/

/-- Settles O46: the step is the register write with the host moved on, and that write does nothing while a command is
pending. -/
theorem registerWritesWhileBusyAreIgnored : Obligations.RegisterWritesWhileBusyAreIgnored := by
  intro s rest w offset size v hturns hpending hop
  have hstep := step_host_op s rest _ hturns hop
  rw [State.hostPerform, State.hostRegWrite_withTurns,
    s.hostRegWrite_busy offset size v (State.busy_of_pending hpending)] at hstep
  exact hstep

/-! ## MEM writes into a region of the running command (70_reset R267) -/

theorem State.inUsedRegion_iff {s : State} {w : Word} {i : Instr} (hpending : s.pending = some w)
    (hdecode : decode w = .ok i) (r : RegionId) (a : Nat) :
    s.inUsedRegion r a = true ↔ i.uses r = true ∧ s.base r ≤ a ∧ a < s.base r + s.len r := by
  simp only [State.inUsedRegion, State.pendingInstr, hpending, hdecode, State.inRegion, Bool.and_eq_true,
    decide_eq_true_eq]

theorem State.inAnyUsedRegion_iff (s : State) (a : Nat) :
    s.inAnyUsedRegion a = true ↔ ∃ r, s.inUsedRegion r a = true := by
  rw [State.inAnyUsedRegion, Bool.or_eq_true, Bool.or_eq_true]
  constructor
  · rintro ((hin | haux) | hout)
    exacts [⟨.inp, hin⟩, ⟨.aux, haux⟩, ⟨.out, hout⟩]
  · rintro ⟨r, hr⟩
    cases r with
    | inp => exact .inl (.inl hr)
    | aux => exact .inl (.inr hr)
    | out => exact .inr hr

/-- Settles O53: the write is one byte stored, and an undisturbed command becomes disturbed by an address in a used region. -/
theorem hostWritesDisturbTheRunningCommand : Obligations.HostWritesDisturbTheRunningCommand := by
  intro s w i a b hpending hdecode ha hundisturbed
  rw [s.hostMemWrite_inside b ha]
  refine ⟨?_, fun x => s.mem.read?_write a x b⟩
  simp only [hundisturbed, Bool.false_or, s.inAnyUsedRegion_iff, State.inUsedRegion_iff hpending hdecode]

/-! ## The results of a disturbed command (93 U5) -/

/-- A register that a scrambled result goes to: as before when the result has no value for it, else the free value. -/
theorem getD_map_const (result : Option Word) (free old : Word) :
    (result.map fun _ => free).getD old = old ∨ (result.map fun _ => free).getD old = free := by
  cases result with
  | none => exact .inl rfl
  | some _ => exact .inr rfl

/-- Byte k from OUT_BASE on, after a scrambled commit: the free value inside the output, and as before past its end. -/
theorem State.read?_committed_scrambled (s : State) (f : Effect) (tick k : Nat) :
    (s.committed (f.scrambled tick).out).read? (s.base .out + k) = s.mem.read? (s.base .out + k)
      ∨ (s.committed (f.scrambled tick).out).read? (s.base .out + k) = some (Config.disturbedOutput tick k) := by
  cases hout : (f.scrambled tick).out with
  | none => exact .inl rfl
  | some bytes =>
    obtain ⟨original, -, rfl⟩ := Option.map_eq_some_iff.mp hout
    rw [State.committed_some]
    by_cases hk : k < original.length
    · right
      rw [Memory.read?_writeBytes_inside _ _ _ _ (by simpa using hk)]
      simp [hk]
    · left
      exact Memory.read?_writeBytes_outside _ _ _ _ (.inr (by simpa using hk))

/-- Settles O54: a disturbed success commits its scrambled results, and an abort writes none. -/
theorem disturbedCommandsWriteFreeValues : Obligations.DisturbedCommandsWriteFreeValues := by
  intro i s t hdisturbed h
  obtain ⟨f, -, rfl⟩ | ⟨e, -, rfl⟩ := exec_cases i s t h
  case inl =>
    rw [if_pos hdisturbed]
    exact ⟨rfl, getD_map_const f.res0 _ _, getD_map_const f.res1 _ _, getD_map_const f.res2 _ _,
      getD_map_const f.res3 _ _, getD_map_const f.res4 _ _, getD_map_const f.res5 _ _,
      s.read?_committed_scrambled f s.tick⟩
  case inr => exact ⟨rfl, .inl rfl, .inl rfl, .inl rfl, .inl rfl, .inl rfl, .inl rfl, fun _ => .inl rfl⟩

end Sys2Proof.Machine
end
